-- ==== Sys2Proof/Word.lean ====
section
/-!
DEFINITION. The word types of the block (spec 00 R7: data width 8, CPU and PPU addresses issued as 16 bits;
30 R90: the 28-bit transaction word; 10 R27: the 15-bit loopy address).
-/
namespace Sys2Proof

/-- One byte, the only data width (20 R65, R67). -/
abbrev Byte := BitVec 8

/-- A CPU-space or PPU-space address as issued (00 R7). -/
abbrev Addr := BitVec 16

/-- A loopy address, the format of `v` and `t` (10 R27). -/
abbrev Loopy := BitVec 15

/-- A transaction word (30 R90). -/
abbrev Word := BitVec 28

end Sys2Proof
end

