-- ==== Sys2Proof/Config.lean ====
section
/-!
DEFINITION. What an implementation fixes (the OPEN parameters of spec 00 R7) and the free values (the draws of
10 R45, 41 R166 and 42 R183). The parameters are plain data carried by the state and changed by nothing
(assumption 8); the draws are opaque constants, so no proof can see a value of one (assumptions 6 and 7).
-/
namespace Sys2Proof

/-- What a NES 2.0 image does (00 R7 `Nes2Policy`, 41 R164). -/
inductive Nes2Policy where
  | parseAsINES
  | refuse
  deriving DecidableEq, Repr

/-- The OPEN parameter `NametableMap` (20 R64) as plain data (assumption 9). -/
inductive NametableMap where
  /-- the default map of 20 R64, chosen by the header's mirroring bit -/
  | byHeader
  /-- any other map: entry `a` is the store offset of PPU address `a`; an address past the table takes the default map -/
  | table (offsets : List Nat)
  deriving DecidableEq, Repr

/-- The OPEN parameters of 00 R7 that a rule of the block reads. -/
structure Config where
  workRamLo : Addr
  workRamHi : Addr
  workRamSize : Nat
  workRamMask : Addr
  videoRamLo : Addr
  videoRamHi : Addr
  videoRamSize : Nat
  nametableMap : NametableMap
  writeOnlyReadValue : Byte
  dataReadBuffered : Bool
  nes2Policy : Nes2Policy
  deriving DecidableEq, Repr

/-- The defaults of 00 R7 (92 D4, D5, D11, D13, D36). -/
def Config.default : Config where
  workRamLo := 0x0000
  workRamHi := 0x1FFF
  workRamSize := 2048
  workRamMask := 0x07FF
  videoRamLo := 0x2000
  videoRamHi := 0x3EFF
  videoRamSize := 2048
  nametableMap := .byHeader
  writeOnlyReadValue := 0x00
  dataReadBuffered := false
  nes2Policy := .parseAsINES

/-- The sizes agree with the address masks: no masked or mapped offset leaves its store (assumption 9). -/
def Config.wf (c : Config) : Bool :=
  decide (c.workRamMask.toNat < c.workRamSize) && decide (2048 ≤ c.videoRamSize) &&
    match c.nametableMap with
    | .byHeader => true
    | .table offsets => offsets.all (fun o => decide (o < c.videoRamSize))

/-- The byte stores whose power-up contents are draws (10 R45). -/
inductive StoreId where
  | wram
  | vram
  | oam
  | pal
  | chrRam
  deriving DecidableEq, Repr

/-- FREE VALUE: the power-up draw of one byte of a store (10 R45, 41 R166; assumption 6). -/
opaque Config.powerUp : StoreId → Nat → Byte

/-- FREE VALUE: the power-up draw of one frame-buffer element (10 R37, R45; assumption 6). -/
opaque Config.powerUpPixel : Nat → BitVec 6

/-- FREE VALUE: the n-th draw of `StatusLowBits` (42 R183; assumption 7). -/
opaque Config.statusLowBits : Nat → BitVec 5

end Sys2Proof
end

