-- ==== Sys2Proof/Machine/Parts.lean ====
section
/-!
DEFINITION. The types of the parts of the state (spec 10_state.md R21-R41), plain data throughout.
-/
namespace Sys2Proof.Machine

/-- The devices of the fabric (10 R21). -/
inductive DeviceId where
  | cartCpu
  | cartPpu
  | ppu
  | workRam
  | videoRam
  deriving DecidableEq, Repr

/-- `S.claimed[d]`, one output flag per device (10 R21). -/
structure Claims where
  cartCpu : Bool
  cartPpu : Bool
  ppu : Bool
  workRam : Bool
  videoRam : Bool
  deriving DecidableEq, Repr

/-- A store: the cells something has written, addresses strictly rising. A cell not listed has never been written and
reads as its power-up draw (assumption 6). `Memory 8` is a list of `Host.Cell`. -/
abbrev Memory (w : Nat) := List (Nat × BitVec w)

/-- One slot of the sprite pipeline: a secondary-OAM entry and the pattern shift pair it is paired with (10 R34). -/
structure Sprite where
  y : Byte
  tile : Byte
  attr : Byte
  x : Byte
  shLo : Byte
  shHi : Byte
  deriving DecidableEq, Repr

/-- The PPU (10 R23-R37). -/
structure Ppu where
  ctrl : Byte
  mask : Byte
  status : Byte
  v : Loopy
  t : Loopy
  fineX : BitVec 3
  w : Bool
  oamAddr : Byte
  oam : Memory 8
  pal : Memory 8
  dataBuf : Byte
  bgNextTileId : Byte
  bgNextAttr : BitVec 2
  bgNextLo : Byte
  bgNextHi : Byte
  bgShPatLo : BitVec 16
  bgShPatHi : BitVec 16
  bgShAttrLo : BitVec 16
  bgShAttrHi : BitVec 16
  sprites : List Sprite
  spriteCount : Nat
  zeroHitPossible : Bool
  scanline : Int
  cycle : Nat
  oddFrame : Bool
  frameComplete : Bool
  nmiPending : Bool
  fb : Memory 6
  deriving DecidableEq, Repr

/-- The image format named by the header (30 R100, byte 7 bits 3:2). -/
inductive RomFormat where
  | iNES
  | nes2
  deriving DecidableEq, Repr

/-- The closed mapper variant (41 R150). -/
inductive Mapper where
  | nrom
  | cnrom
  deriving DecidableEq, Repr

/-- The header fields a load commits (30 R100, 41 R165). -/
structure Header where
  format : RomFormat
  prgBanks : Byte
  chrBanks : Byte
  mirroring : Bool
  battery : Bool
  trainer : Bool
  fourScreen : Bool
  mapperId : Byte
  vsUnisystem : Bool
  playChoice10 : Bool
  prgRamSize : Byte
  tvSystem : Byte
  flags10 : Byte
  deriving DecidableEq, Repr

/-- CHR storage: the image's bytes, or 8 KiB of CHR-RAM (10 R40). -/
inductive ChrStore where
  | rom (bytes : List Byte)
  | ram (cells : Memory 8)
  deriving DecidableEq, Repr

/-- A load-completion callback; the SystemManager registers the only one (44 R270). -/
inductive Callback where
  | onCartridgeLoaded
  deriving DecidableEq, Repr

/-- The cartridge (10 R40). The header has no value before a load. -/
structure Cart where
  loaded : Bool
  header : Option Header
  prg : List Byte
  chr : ChrStore
  mapper : Mapper
  callbacks : List Callback
  deriving DecidableEq, Repr

/-- The out-of-band operand of LOAD_CART (30 R90). -/
inductive Image where
  | unreadable
  | bytes (b : List Byte)
  deriving DecidableEq, Repr

/-- A word an agent issues, with the image beside it (30 R90). -/
structure Request where
  word : Word
  image : Image
  deriving DecidableEq, Repr

/-- A chain transaction of the CPU collaborator (44 R274). -/
inductive CpuTxn where
  | read (addr : Addr)
  | write (addr : Addr) (data : Byte)
  deriving DecidableEq, Repr

/-- A call the block makes to the CPU collaborator (44 R274). -/
inductive CpuCall where
  | reset
  | nmi
  | clock
  deriving DecidableEq, Repr

/-- The environment's side of the interface and the model's own counter; no state of the block (assumptions 1, 2, 4, 5, 7). -/
structure Env where
  /-- the words still to be issued, first to be issued first -/
  requests : List Request
  /-- the image beside the word being executed -/
  operand : Image
  /-- what each coming `CpuClock()` does -/
  cpuBatches : List (List CpuTxn)
  /-- the calls made to the CPU collaborator, newest first -/
  cpuCalls : List CpuCall
  /-- the bytes returned by reads, newest first -/
  replies : List Byte
  /-- how many `StatusLowBits` draws have been taken -/
  draws : Nat
  deriving DecidableEq, Repr

end Sys2Proof.Machine
end

