-- ==== Sys2Proof/Machine/ResetValues.lean ====
section
/-!
DEFINITION. The reset values of the PPU (spec 10 R44) and the construction values of everything (10 R45, 70 R311).
-/
namespace Sys2Proof.Machine

/-- A slot of the sprite pipeline after a PPU reset: secondary OAM 0xFF, shift bytes 0 (10 R44). -/
def Sprite.cleared : Sprite :=
  { y := 0xFF, tile := 0xFF, attr := 0xFF, x := 0xFF, shLo := 0, shHi := 0 }

/-- The PPU as constructed: its reset state, OAM, palette RAM and frame buffer at their power-up draws (10 R45). -/
def Ppu.powerUp : Ppu :=
  { ctrl := 0, mask := 0, status := 0, v := 0, t := 0, fineX := 0, w := false, oamAddr := 0, oam := [], pal := [],
    dataBuf := 0, bgNextTileId := 0, bgNextAttr := 0, bgNextLo := 0, bgNextHi := 0,
    bgShPatLo := 0, bgShPatHi := 0, bgShAttrLo := 0, bgShAttrHi := 0,
    sprites := List.replicate 8 Sprite.cleared, spriteCount := 0, zeroHitPossible := false,
    scanline := -1, cycle := 0, oddFrame := false, frameComplete := false, nmiPending := false, fb := [] }

/-- `PpuReset()` on the PPU: every field of 10 R44 takes its value there, which is its construction value (10 R45); `oam`,
`pal` and `fb`, the only others, keep their contents (44 R277). -/
def Ppu.resetRegisters (p : Ppu) : Ppu :=
  { Ppu.powerUp with oam := p.oam, pal := p.pal, fb := p.fb }

/-- The cartridge as constructed and wired: not loaded, no PRG or CHR, mapper NROM, one callback (10 R40, 70 R311,
44 R270). -/
def Cart.constructed : Cart :=
  { loaded := false, header := none, prg := [], chr := .rom [], mapper := .nrom, callbacks := [.onCartridgeLoaded] }

/-- Every claim flag false (10 R21). -/
def Claims.noneClaimed : Claims :=
  { cartCpu := false, cartPpu := false, ppu := false, workRam := false, videoRam := false }

/-- An environment that asks nothing and has seen nothing (assumptions 1, 2, 4, 5, 7). -/
def Env.quiet : Env :=
  { requests := [], operand := .unreadable, cpuBatches := [], cpuCalls := [], replies := [], draws := 0 }

end Sys2Proof.Machine
end

