-- ==== Sys2Proof/Machine/State.lean ====
section
/-!
DEFINITION. The state record (spec 10 R20), its two marks, and the state after construction (10 R45).
-/
namespace Sys2Proof.Machine

/-- The fault kinds, a closed list (60 R292). A fault is the mark `S.fault` of a NEXT state, after which every word is
ignored (60 R291; assumption 3); no meaning answers `Host.Outcome.fault`. -/
inductive Fault where
  /-- raised by a CPU read of 0x8000-0xFFFF (41 R158) or a PPU read of CHR (41 R161, unreachable) whose offset is outside
  the storage. Safe: the spec's simulator asserts there. -/
  | mapperOffsetOutOfBounds (address : Addr) (offset : Nat)
  /-- raised by LOAD_CART on an image that cannot be read (41 R163). Safe: the load is fatal. -/
  | loadUnreadable
  /-- raised by LOAD_CART on an image shorter than its header says (41 R164, R167). Safe: the load is fatal. -/
  | loadTruncated (length : Nat) (needed : Nat)
  /-- raised by LOAD_CART on bytes 0-3 other than 4E 45 53 1A (41 R164). Safe: the load is fatal. -/
  | loadBadSignature (b0 b1 b2 b3 : Byte)
  deriving DecidableEq, Repr

/-- The refusal reasons, a closed list (60 R294), and the host's `notModelled`. A refusal is the mark `S.refused` of a NEXT
state (60 R293; assumption 3); no meaning answers `Host.Outcome.refused`. -/
inductive Refusal where
  /-- an arm of exec without a meaning; no arm of this model is one. Safe. -/
  | notModelled (mnemonic : String)
  /-- marked by RESERVED_OP_A_B and RESERVED_OP_C_F (30 R91). Safe: errs toward unprovable. -/
  | reservedOp
  /-- marked by the step on a word with a non-zero reserved field (30 R92). Safe: errs toward unprovable. -/
  | reservedField
  /-- marked by LOAD_CART when a cartridge is loaded (41 R168). Safe: errs toward unprovable. -/
  | secondLoad
  /-- marked by LOAD_CART on a NES 2.0 image under `Nes2Policy = refuse` (41 R164). Safe: errs toward unprovable. -/
  | nes2NotDecoded
  deriving DecidableEq, Repr

/-- The state: the record S of 10 R20, the configuration no operation changes (00 R7; assumption 8), and the environment's
side of the interface (assumption 1). -/
structure State where
  claimed : Claims
  wram : Memory 8
  vram : Memory 8
  cart : Cart
  ppu : Ppu
  running : Bool
  fault : Option Fault
  refused : Option Refusal
  config : Config
  env : Env
  deriving DecidableEq, Repr

/-- The system as constructed and wired (10 R45, 44 R270, 70 R311), the parameters at their defaults (00 R7). -/
def State.reset : State :=
  { claimed := Claims.noneClaimed, wram := [], vram := [], cart := Cart.constructed, ppu := Ppu.powerUp,
    running := true, fault := none, refused := none, config := Config.default, env := Env.quiet }

end Sys2Proof.Machine
end

