-- ==== Sys2Proof/Machine/Flags.lean ====
section
/-!
DEFINITION. The bit fields of Control, Mask, Status and the OAM attribute byte (spec 10 R24-R26, R29), and every update of a
Status flag.
-/
namespace Sys2Proof.Machine

/-- `x` with bit `i` set to `b`, every other bit kept (00 R10: writing a field writes those bits only). -/
def setBit (x : Byte) (i : Nat) (b : Bool) : Byte :=
  if b then x ||| BitVec.twoPow 8 i else x &&& ~~~(BitVec.twoPow 8 i)

/-! Control (10 R24). Bit 6, `masterSlave`, is stored and read by no rule. -/

def Ppu.incrementMode (p : Ppu) : Bool := p.ctrl.getLsbD 2
def Ppu.spritePatternTable (p : Ppu) : Bool := p.ctrl.getLsbD 3
def Ppu.bgPatternTable (p : Ppu) : Bool := p.ctrl.getLsbD 4
def Ppu.spriteSize (p : Ppu) : Bool := p.ctrl.getLsbD 5
def Ppu.masterSlave (p : Ppu) : Bool := p.ctrl.getLsbD 6
def Ppu.nmiEnable (p : Ppu) : Bool := p.ctrl.getLsbD 7

/-! Mask (10 R25). The emphasis bits 7:5 are stored and read by no rule. -/

def Ppu.greyscale (p : Ppu) : Bool := p.mask.getLsbD 0
def Ppu.showBgLeft (p : Ppu) : Bool := p.mask.getLsbD 1
def Ppu.showSpritesLeft (p : Ppu) : Bool := p.mask.getLsbD 2
def Ppu.showBg (p : Ppu) : Bool := p.mask.getLsbD 3
def Ppu.showSprites (p : Ppu) : Bool := p.mask.getLsbD 4

/-- `RenderingEnabled()` (43 R260). -/
def Ppu.renderingEnabled (p : Ppu) : Bool := p.showBg || p.showSprites

/-! Status (10 R26). -/

def Ppu.stale (p : Ppu) : BitVec 5 := p.status.extractLsb' 0 5
def Ppu.spriteOverflow (p : Ppu) : Bool := p.status.getLsbD 5
def Ppu.spriteZeroHit (p : Ppu) : Bool := p.status.getLsbD 6
def Ppu.vblank (p : Ppu) : Bool := p.status.getLsbD 7

def Ppu.setSpriteOverflow (b : Bool) (p : Ppu) : Ppu := { p with status := setBit p.status 5 b }
def Ppu.setSpriteZeroHit (b : Bool) (p : Ppu) : Ppu := { p with status := setBit p.status 6 b }
def Ppu.setVblank (b : Bool) (p : Ppu) : Ppu := { p with status := setBit p.status 7 b }

/-- The byte a Status read returns: flags 7, 6, 5 and the draw in bits 4:0 (42 R183). -/
def Ppu.statusByte (p : Ppu) (low : BitVec 5) : Byte :=
  BitVec.ofBool p.vblank ++ BitVec.ofBool p.spriteZeroHit ++ BitVec.ofBool p.spriteOverflow ++ low

/-! OAM attribute byte (10 R29). Bits 4:2 are stored and read by no rule. -/

def Sprite.palette (e : Sprite) : BitVec 2 := e.attr.extractLsb' 0 2
def Sprite.behind (e : Sprite) : Bool := e.attr.getLsbD 5
def Sprite.flipH (e : Sprite) : Bool := e.attr.getLsbD 6
def Sprite.flipV (e : Sprite) : Bool := e.attr.getLsbD 7

end Sys2Proof.Machine
end

