-- ==== Sys2Proof/Machine/Operands.lean ====
section
/-!
DEFINITION. Every operand form: the loopy fields and the register write operands (spec 10 R27, 30 R94), the scroll counters
(43 R234-R238), the address formations (20 R63, R64, 30 R95-R99), the sprite row and pattern addresses (43 R245, R249, R250),
the mapper translations (41 R150-R157) and the declared ranges (40 R132).
-/
namespace Sys2Proof.Machine

/-! ## Loopy addresses (10 R27) -/

def Loopy.coarseX (v : Loopy) : BitVec 5 := v.extractLsb' 0 5
def Loopy.coarseY (v : Loopy) : BitVec 5 := v.extractLsb' 5 5
def Loopy.nametableX (v : Loopy) : Bool := v.getLsbD 10
def Loopy.nametableY (v : Loopy) : Bool := v.getLsbD 11
def Loopy.fineY (v : Loopy) : BitVec 3 := v.extractLsb' 12 3

/-- The loopy address with the given fields (10 R27). -/
def Loopy.ofFields (fineY : BitVec 3) (nametableY nametableX : Bool) (coarseY coarseX : BitVec 5) : Loopy :=
  fineY ++ BitVec.ofBool nametableY ++ BitVec.ofBool nametableX ++ coarseY ++ coarseX

def Loopy.withCoarseX (v : Loopy) (x : BitVec 5) : Loopy :=
  Loopy.ofFields (Loopy.fineY v) (Loopy.nametableY v) (Loopy.nametableX v) (Loopy.coarseY v) x

def Loopy.withCoarseY (v : Loopy) (y : BitVec 5) : Loopy :=
  Loopy.ofFields (Loopy.fineY v) (Loopy.nametableY v) (Loopy.nametableX v) y (Loopy.coarseX v)

def Loopy.withNametableX (v : Loopy) (b : Bool) : Loopy :=
  Loopy.ofFields (Loopy.fineY v) (Loopy.nametableY v) b (Loopy.coarseY v) (Loopy.coarseX v)

def Loopy.withNametableY (v : Loopy) (b : Bool) : Loopy :=
  Loopy.ofFields (Loopy.fineY v) b (Loopy.nametableX v) (Loopy.coarseY v) (Loopy.coarseX v)

def Loopy.withFineY (v : Loopy) (y : BitVec 3) : Loopy :=
  Loopy.ofFields y (Loopy.nametableY v) (Loopy.nametableX v) (Loopy.coarseY v) (Loopy.coarseX v)

/-- The PPU address a loopy register names: `v & 0x3FFF` (10 R27). -/
def Loopy.ppuAddress (v : Loopy) : Addr := v.setWidth 16 &&& 0x3FFF

/-! ## Register write operands (30 R94) -/

/-- Control's nametable bits into `t` (42 R181). -/
def controlTransfer (t : Loopy) (d : Byte) : Loopy :=
  Loopy.withNametableY (Loopy.withNametableX t (d.getLsbD 0)) (d.getLsbD 1)

/-- Scroll, first write: `t.coarseX <- d[7:3]` (42 R188). -/
def scrollFirst (t : Loopy) (d : Byte) : Loopy := Loopy.withCoarseX t (d.extractLsb' 3 5)

/-- Scroll, first write: `fineX <- d[2:0]` (42 R188). -/
def scrollFineX (d : Byte) : BitVec 3 := d.extractLsb' 0 3

/-- Scroll, second write: `t.fineY <- d[2:0]`, `t.coarseY <- d[7:3]` (42 R188). -/
def scrollSecond (t : Loopy) (d : Byte) : Loopy :=
  Loopy.withCoarseY (Loopy.withFineY t (d.extractLsb' 0 3)) (d.extractLsb' 3 5)

/-- Address, first write: `t[13:8] <- d[5:0]`, `t[14] <- 0` (42 R190). -/
def addressFirst (t : Loopy) (d : Byte) : Loopy := ((d.setWidth 15 &&& 0x3F) <<< 8) ||| (t &&& 0x00FF)

/-- Address, second write: `t[7:0] <- d` (42 R190). -/
def addressSecond (t : Loopy) (d : Byte) : Loopy := (t &&& 0x7F00) ||| d.setWidth 15

/-- `VramIncrement()` of `v` (42 R193). -/
def vramIncrement (v : Loopy) (by32 : Bool) : Loopy := v + (if by32 then 32 else 1)

/-! ## Scroll counters (43 R234-R238) -/

/-- `IncScrollX()` (43 R234). -/
def incScrollX (v : Loopy) : Loopy :=
  if Loopy.coarseX v == 31 then Loopy.withNametableX (Loopy.withCoarseX v 0) (!Loopy.nametableX v)
  else Loopy.withCoarseX v (Loopy.coarseX v + 1)

/-- `IncScrollY()` (43 R235). -/
def incScrollY (v : Loopy) : Loopy :=
  if (Loopy.fineY v).toNat < 7 then Loopy.withFineY v (Loopy.fineY v + 1)
  else if Loopy.coarseY v == 29 then
    Loopy.withNametableY (Loopy.withCoarseY (Loopy.withFineY v 0) 0) (!Loopy.nametableY v)
  else if Loopy.coarseY v == 31 then Loopy.withCoarseY (Loopy.withFineY v 0) 0
  else Loopy.withCoarseY (Loopy.withFineY v 0) (Loopy.coarseY v + 1)

/-- `TransferX()` (43 R237). -/
def transferX (v t : Loopy) : Loopy :=
  Loopy.withCoarseX (Loopy.withNametableX v (Loopy.nametableX t)) (Loopy.coarseX t)

/-- `TransferY()` (43 R238). -/
def transferY (v t : Loopy) : Loopy :=
  Loopy.withCoarseY (Loopy.withNametableY (Loopy.withFineY v (Loopy.fineY t)) (Loopy.nametableY t)) (Loopy.coarseY t)

/-! ## Addresses in PPU space -/

/-- `PalIndex(a)` (20 R63). -/
def palIndex (a : Addr) : Nat :=
  let i := (a &&& 0x1F).toNat
  if i = 0x10 ∨ i = 0x14 ∨ i = 0x18 ∨ i = 0x1C then i - 0x10 else i

/-- The default `NametableMap(a)` (20 R64). -/
def defaultNametableMap (vertical : Bool) (a : Addr) : Nat :=
  let n := a &&& 0x0FFF
  if vertical then (n &&& 0x07FF).toNat else (((n &&& 0x0800) >>> 1) ||| (n &&& 0x03FF)).toNat

/-- `S.cart.loaded and S.cart.mirroring = 1` (20 R64). -/
def Cart.verticalMirroring (c : Cart) : Bool :=
  c.loaded && match c.header with
    | some h => h.mirroring
    | none => false

/-- `NametableMap(a)`, the parameter (20 R64; assumption 9). -/
def nametableOffset (cfg : Config) (c : Cart) (a : Addr) : Nat :=
  match cfg.nametableMap with
  | .byHeader => defaultNametableMap (Cart.verticalMirroring c) a
  | .table offsets => (offsets[a.toNat]?).getD (defaultNametableMap (Cart.verticalMirroring c) a)

/-- Nametable byte address (30 R95, 43 R229). -/
def nametableAddress (v : Loopy) : Addr := 0x2000 ||| (v.setWidth 16 &&& 0x0FFF)

/-- Attribute byte address (30 R96, 43 R230). -/
def attributeAddress (v : Loopy) : Addr :=
  (0x23C0#16) ||| ((BitVec.ofBool (Loopy.nametableY v)).setWidth 16 <<< 11)
    ||| ((BitVec.ofBool (Loopy.nametableX v)).setWidth 16 <<< 10)
    ||| (((Loopy.coarseY v).setWidth 16 >>> 2) <<< 3) ||| ((Loopy.coarseX v).setWidth 16 >>> 2)

/-- The tile's two bits of an attribute byte (30 R96, 43 R230). -/
def attributeBits (v : Loopy) (b : Byte) : BitVec 2 :=
  let b1 := if (Loopy.coarseY v).getLsbD 1 then b >>> 4 else b
  let b2 := if (Loopy.coarseX v).getLsbD 1 then b1 >>> 2 else b1
  b2.extractLsb' 0 2

/-- `table << 12` (43 R232). -/
def tableBase (table : Bool) : Addr := if table then 0x1000 else 0x0000

/-- Background pattern low-plane address (30 R97, 43 R232); the high plane is 8 above (43 R233). -/
def bgPatternAddress (table : Bool) (tile : Byte) (fineY : BitVec 3) : Addr :=
  tableBase table + (tile.setWidth 16 <<< 4) + fineY.setWidth 16

/-- Palette address of a composed pixel (30 R99). -/
def pixelPaletteAddress (pal : BitVec 3) (pixel : BitVec 2) : Addr :=
  (0x3F00#16) + (pal.setWidth 16 <<< 2) + pixel.setWidth 16

/-! ## Sprites -/

/-- Sprite height (43 R242). -/
def Ppu.spriteHeight (p : Ppu) : Nat := if p.spriteSize then 16 else 8

/-- Entry with top `y` matches `scanline` (43 R245), on unbounded integers. -/
def spriteMatches (height : Nat) (scanline : Int) (y : Byte) : Bool :=
  decide (0 ≤ scanline - (y.toNat : Int)) && decide (scanline - (y.toNat : Int) < (height : Int))

/-- The pattern row of a sprite, vertical flip included (43 R249). -/
def spriteRow (height : Nat) (scanline : Int) (e : Sprite) : Nat :=
  let row := ((scanline - (e.y.toNat : Int)) % (height : Int)).toNat
  if e.flipV then (height - 1) - row else row

/-- The low-plane address of a sprite row (30 R98, 43 R249); the high plane is 8 above. -/
def spritePatternAddress (p : Ppu) (scanline : Int) (e : Sprite) : Addr :=
  let row : Addr := BitVec.ofNat 16 (spriteRow p.spriteHeight scanline e)
  if p.spriteSize then
    tableBase (e.tile.getLsbD 0) ||| (((e.tile &&& 0xFE).setWidth 16 + (row >>> 3)) <<< 4) ||| (row &&& 0x7)
  else tableBase p.spritePatternTable ||| (e.tile.setWidth 16 <<< 4) ||| row

/-- `Rev8` (43 R250): bit `i` of the result is bit `7 - i` of `b`. -/
def rev8 (b : Byte) : Byte :=
  BitVec.ofBool (b.getLsbD 0) ++ BitVec.ofBool (b.getLsbD 1) ++ BitVec.ofBool (b.getLsbD 2) ++ BitVec.ofBool (b.getLsbD 3) ++
    BitVec.ofBool (b.getLsbD 4) ++ BitVec.ofBool (b.getLsbD 5) ++ BitVec.ofBool (b.getLsbD 6) ++ BitVec.ofBool (b.getLsbD 7)

/-! ## Mapper translation (41 R150-R157) -/

/-- `S.cart.prgBanks`; read only once loaded (10 R40). -/
def Cart.prgBanks (c : Cart) : Nat :=
  match c.header with
  | some h => h.prgBanks.toNat
  | none => 0

/-- `S.cart.chrBanks`; read only once loaded (10 R40). -/
def Cart.chrBanks (c : Cart) : Nat :=
  match c.header with
  | some h => h.chrBanks.toNat
  | none => 0

/-- `MapCpu_NROM(a)` (41 R152). -/
def mapCpuNrom (c : Cart) (a : Addr) : Nat × Bool :=
  if 0x8000 ≤ a.toNat then ((a &&& (if 1 < Cart.prgBanks c then 0x7FFF else 0x3FFF)).toNat, true) else (0, false)

/-- `MapCpu_CNROM(a)` (41 R154). -/
def mapCpuCnrom (c : Cart) (a : Addr) : Nat × Bool := mapCpuNrom c a

/-- `MapCpu(a)` (41 R150). -/
def mapCpu (c : Cart) (a : Addr) : Nat × Bool :=
  match c.mapper with
  | .nrom => mapCpuNrom c a
  | .cnrom => mapCpuCnrom c a

/-- `MapPpu_NROM(a)` (41 R153). -/
def mapPpuNrom (_c : Cart) (a : Addr) : Nat × Bool :=
  if a.toNat ≤ 0x1FFF then (a.toNat, true) else (0, false)

/-- `MapPpu_CNROM(a)`: CHR bank 0 is fixed (41 R155). -/
def mapPpuCnrom (c : Cart) (a : Addr) : Nat × Bool := mapPpuNrom c a

/-- `MapPpu(a)` (41 R150). -/
def mapPpu (c : Cart) (a : Addr) : Nat × Bool :=
  match c.mapper with
  | .nrom => mapPpuNrom c a
  | .cnrom => mapPpuCnrom c a

/-- `select(mapperId)` (41 R156): 3 is CNROM, every other number NROM. -/
def selectMapper (id : Byte) : Mapper := if id == 3 then .cnrom else .nrom

/-! ## Declared ranges and the register index -/

/-- `[min(d), max(d)]` (40 R132). -/
def declaredRange (cfg : Config) : DeviceId → Addr × Addr
  | .cartCpu => (0x8000, 0xFFFF)
  | .cartPpu => (0x0000, 0x1FFF)
  | .ppu => (0x2000, 0x3FFF)
  | .workRam => (cfg.workRamLo, cfg.workRamHi)
  | .videoRam => (cfg.videoRamLo, cfg.videoRamHi)

/-- `a ∈ [min(d), max(d)]` (40 R131). -/
def inRange (cfg : Config) (d : DeviceId) (a : Addr) : Bool :=
  decide ((declaredRange cfg d).1.toNat ≤ a.toNat) && decide (a.toNat ≤ (declaredRange cfg d).2.toNat)

/-- The PPU register a CPU address selects: `(a & 0x2007) & 0x7` (42 R180). -/
def regIndex (a : Addr) : Nat := ((a &&& 0x2007) &&& 0x0007).toNat

end Sys2Proof.Machine
end

