-- ==== Sys2Proof/Machine/Ops.lean ====
section
/-!
DEFINITION. The named operations over memory, marks and devices: the stores, raising a fault and refusing (spec 60 R291, R293),
the NMI request and its delivery (43 R255, 44 R275), the resets (44 R271-R277), the chain transactions (40 R133, R134), the
byte stores and cartridge faces as devices (40 R139, R140, 41 R158-R162) and the PPU's own VRAM access (42 R196-R199).
-/
namespace Sys2Proof.Machine

/-! ## Stores -/

/-- The value something has written to cell `a`, if any. -/
def Memory.get? {w : Nat} : Memory w → Nat → Option (BitVec w)
  | [], _ => none
  | (k, v) :: m, a => if k = a then some v else Memory.get? m a

/-- Write cell `a`, keeping the addresses strictly rising. -/
def Memory.put {w : Nat} : Memory w → Nat → BitVec w → Memory w
  | [], a, v => [(a, v)]
  | (k, x) :: m, a, v =>
    if a < k then (a, v) :: (k, x) :: m
    else if a = k then (a, v) :: m
    else (k, x) :: Memory.put m a v

/-- Every address listed after `lo` lies above it, rising. -/
def Memory.wfAbove {w : Nat} : Nat → Memory w → Bool
  | _, [] => true
  | lo, (k, _) :: m => decide (lo < k) && Memory.wfAbove k m

/-- The canonical form: addresses strictly rising. An unlisted cell holds no written value, so no entry can equal it
(assumption 6). -/
def Memory.wf {w : Nat} : Memory w → Bool
  | [] => true
  | (k, _) :: m => Memory.wfAbove k m

/-- Every address listed lies below `n`. -/
def Memory.below {w : Nat} (n : Nat) (m : Memory w) : Bool := m.all (fun c => decide (c.1 < n))

/-- The byte a store holds: what was written last, or its power-up draw (10 R45). -/
def storeByte (id : StoreId) (m : Memory 8) (a : Nat) : Byte := (Memory.get? m a).getD (Config.powerUp id a)

/-- `ppu.fb[y][x]` at key `256 * y + x`: what was written last, or its power-up draw (10 R37, R45). -/
def pixelAt (fb : Memory 6) (a : Nat) : BitVec 6 := (Memory.get? fb a).getD (Config.powerUpPixel a)

/-! ## Updates of the state -/

def State.mapPpu (f : Ppu → Ppu) (s : State) : State := { s with ppu := f s.ppu }

def Claims.get (c : Claims) : DeviceId → Bool
  | .cartCpu => c.cartCpu
  | .cartPpu => c.cartPpu
  | .ppu => c.ppu
  | .workRam => c.workRam
  | .videoRam => c.videoRam

def Claims.set (c : Claims) : DeviceId → Bool → Claims
  | .cartCpu, b => { c with cartCpu := b }
  | .cartPpu, b => { c with cartPpu := b }
  | .ppu, b => { c with ppu := b }
  | .workRam, b => { c with workRam := b }
  | .videoRam, b => { c with videoRam := b }

/-- `S.claimed[d] <- b` (40 R130). -/
def State.setClaim (d : DeviceId) (b : Bool) (s : State) : State := { s with claimed := Claims.set s.claimed d b }

/-- A byte returned to the agent that issued the read (assumption 5). -/
def State.reply (b : Byte) (s : State) : State := { s with env := { s.env with replies := b :: s.env.replies } }

/-! ## Marks -/

/-- An operation that may be abandoned by a fault: `error` carries the faulted state, with its mark set (60 R291). -/
abbrev Halting (α : Type) := Except State α

/-- `raise Fault(kind, info)`: the mark is set at this point (60 R291). The caller abandons the rest. -/
def raiseFault (f : Fault) (s : State) : State := { s with fault := some f }

/-- `refuse(reason)`: the mark is set and nothing else changes (60 R293). -/
def refuse (r : Refusal) (s : State) : State := { s with refused := some r }

/-- The state an operation ends in, abandoned or not (assumption 3). -/
def endState (r : Halting State) : State :=
  match r with
  | .ok s => s
  | .error s => s

/-- The outcome of an operation that may be abandoned: a next state either way, the fault being its mark (assumption 3). -/
def finish (r : Halting State) : Host.Outcome State Fault Refusal := .next (endState r)

/-! ## NMI and reset -/

/-- The NMI request of the vblank clock (43 R255). -/
def Ppu.raiseNmi (p : Ppu) : Ppu := if p.nmiEnable then { p with nmiPending := true } else p

/-- A call to the CPU collaborator (44 R274); the call itself changes nothing in the block (assumption 4). -/
def callCpu (c : CpuCall) (s : State) : State := { s with env := { s.env with cpuCalls := c :: s.env.cpuCalls } }

/-- `CpuReset()` (44 R274). -/
def cpuReset (s : State) : State := callCpu .reset s

/-- `CpuNmi()` (44 R274). -/
def cpuNmi (s : State) : State := callCpu .nmi s

/-- `DeliverNmi()` (44 R275): the pending request is cleared and handed to the CPU collaborator, once. -/
def deliverNmi (s : State) : State :=
  if s.ppu.nmiPending then cpuNmi (s.mapPpu (fun p => { p with nmiPending := false })) else s

/-- `PpuReset()` (44 R277). -/
def ppuReset (s : State) : State := s.mapPpu Ppu.resetRegisters

/-- The CPU reset, then the PPU reset: `Reset()` and `OnCartridgeLoaded()` (44 R271, R276). -/
def resetBoth (s : State) : State := ppuReset (cpuReset s)

/-! ## Chain transactions (40 R133, R134) -/

/-- `CpuChain`, first responder first (10 R22). -/
def cpuChain : List DeviceId := [.cartCpu, .ppu, .workRam]

/-- `PpuChain` (10 R22). -/
def ppuChain : List DeviceId := [.cartPpu, .videoRam]

/-- `CartChain` (10 R22): wired; no in-scope operation transacts on it (40 R137). -/
def cartChain : List DeviceId := [.ppu, .workRam]

/-- The clearing of stale flags before a transaction (40 R133). -/
def clearClaims : List DeviceId → State → State
  | [], s => s
  | d :: ds, s => clearClaims ds (s.setClaim d false)

/-- Consult the devices in order until one claims the read; open bus reads 0 (40 R133). -/
def consultRead (read : DeviceId → Addr → State → Halting (Byte × State)) (a : Addr) :
    List DeviceId → State → Halting (Byte × State)
  | [], s => .ok (0, s)
  | d :: ds, s =>
    match read d a s with
    | .error s' => .error s'
    | .ok (b, s') => if Claims.get s'.claimed d then .ok (b, s') else consultRead read a ds s'

/-- `ChainRead(chain, a)` over devices that answer by `read` (40 R133). -/
def chainRead (read : DeviceId → Addr → State → Halting (Byte × State)) (chain : List DeviceId) (a : Addr) (s : State) :
    Halting (Byte × State) :=
  consultRead read a chain (clearClaims chain s)

/-- Consult the devices in order until one claims the write; an unclaimed write is dropped (40 R134). -/
def consultWrite (write : DeviceId → Addr → Byte → State → State) (a : Addr) (v : Byte) :
    List DeviceId → State → State
  | [], s => s
  | d :: ds, s =>
    let s' := write d a v s
    if Claims.get s'.claimed d then s' else consultWrite write a v ds s'

/-- `ChainWrite(chain, a, v)` over devices that accept by `write` (40 R134). -/
def chainWrite (write : DeviceId → Addr → Byte → State → State) (chain : List DeviceId) (a : Addr) (v : Byte) (s : State) :
    State :=
  consultWrite write a v chain (clearClaims chain s)

/-! ## The cartridge faces (41 R158-R162) -/

/-- `S.cart.chrIsRam` (10 R40). -/
def Cart.chrIsRam (c : Cart) : Bool :=
  match c.chr with
  | .rom _ => false
  | .ram _ => true

/-- The CHR byte at an offset; none where `off >= length(S.cart.chr)` (41 R161). -/
def ChrStore.byte? (c : ChrStore) (off : Nat) : Option Byte :=
  match c with
  | .rom bytes => bytes[off]?
  | .ram cells => if off < 8192 then some (storeByte .chrRam cells off) else none

/-- A CHR write: CHR-RAM stores it, CHR-ROM discards it (41 R162). -/
def ChrStore.write (c : ChrStore) (off : Nat) (v : Byte) : ChrStore :=
  match c with
  | .rom bytes => .rom bytes
  | .ram cells => .ram (Memory.put cells off v)

/-- A device that declines a read (40 R131). -/
def declineRead (d : DeviceId) (s : State) : Halting (Byte × State) := .ok (0, s.setClaim d false)

/-- `read(CartCpu, a)` (41 R158). -/
def cartCpuRead (a : Addr) (s : State) : Halting (Byte × State) :=
  if s.cart.loaded then
    match mapCpu s.cart a with
    | (off, true) =>
      match s.cart.prg[off]? with
      | some b => .ok (b, s.setClaim .cartCpu true)
      | none => .error (raiseFault (.mapperOffsetOutOfBounds a off) (s.setClaim .cartCpu true))
    | (_, false) => declineRead .cartCpu s
  else declineRead .cartCpu s

/-- `write(CartCpu, a, v)`: claimed inside the window, nothing stored (41 R159). -/
def cartCpuWrite (a : Addr) (_v : Byte) (s : State) : State :=
  if s.cart.loaded then s.setClaim .cartCpu (mapCpu s.cart a).2 else s.setClaim .cartCpu false

/-- `read(CartPpu, a)` (41 R161). -/
def cartPpuRead (a : Addr) (s : State) : Halting (Byte × State) :=
  if s.cart.loaded then
    match mapPpu s.cart a with
    | (off, true) =>
      match ChrStore.byte? s.cart.chr off with
      | some b => .ok (b, s.setClaim .cartPpu true)
      | none => .error (raiseFault (.mapperOffsetOutOfBounds a off) (s.setClaim .cartPpu true))
    | (_, false) => declineRead .cartPpu s
  else declineRead .cartPpu s

/-- `write(CartPpu, a, v)` (41 R162). -/
def cartPpuWrite (a : Addr) (v : Byte) (s : State) : State :=
  if s.cart.loaded then
    match mapPpu s.cart a with
    | (off, true) =>
      { s.setClaim .cartPpu true with cart := { s.cart with chr := ChrStore.write s.cart.chr off v } }
    | (_, false) => s.setClaim .cartPpu false
  else s.setClaim .cartPpu false

/-! ## The byte stores (40 R139, R140) -/

/-- The WorkRam index of a CPU address (40 R139). -/
def workRamIndex (cfg : Config) (a : Addr) : Nat := (a &&& cfg.workRamMask).toNat

/-- `read(WorkRam, a)` (40 R139). -/
def workRamRead (a : Addr) (s : State) : Halting (Byte × State) :=
  if inRange s.config .workRam a then
    .ok (storeByte .wram s.wram (workRamIndex s.config a), s.setClaim .workRam true)
  else declineRead .workRam s

/-- `write(WorkRam, a, v)` (40 R139). -/
def workRamWrite (a : Addr) (v : Byte) (s : State) : State :=
  if inRange s.config .workRam a then
    { s.setClaim .workRam true with wram := Memory.put s.wram (workRamIndex s.config a) v }
  else s.setClaim .workRam false

/-- `read(VideoRam, a)` (40 R140). -/
def videoRamRead (a : Addr) (s : State) : Halting (Byte × State) :=
  if inRange s.config .videoRam a then
    .ok (storeByte .vram s.vram (nametableOffset s.config s.cart a), s.setClaim .videoRam true)
  else declineRead .videoRam s

/-- `write(VideoRam, a, v)` (40 R140). -/
def videoRamWrite (a : Addr) (v : Byte) (s : State) : State :=
  if inRange s.config .videoRam a then
    { s.setClaim .videoRam true with vram := Memory.put s.vram (nametableOffset s.config s.cart a) v }
  else s.setClaim .videoRam false

/-- The read of a memory device. The PPU chain holds only these (10 R22), so the PPU itself declines here. -/
def memoryDeviceRead (d : DeviceId) (a : Addr) (s : State) : Halting (Byte × State) :=
  match d with
  | .cartCpu => cartCpuRead a s
  | .cartPpu => cartPpuRead a s
  | .workRam => workRamRead a s
  | .videoRam => videoRamRead a s
  | .ppu => declineRead .ppu s

/-- The write of a memory device. -/
def memoryDeviceWrite (d : DeviceId) (a : Addr) (v : Byte) (s : State) : State :=
  match d with
  | .cartCpu => cartCpuWrite a v s
  | .cartPpu => cartPpuWrite a v s
  | .workRam => workRamWrite a v s
  | .videoRam => videoRamWrite a v s
  | .ppu => s.setClaim .ppu false

/-- `clock(d)` of the four memory devices changes no state (40 R141). -/
def memoryDeviceClock (_d : DeviceId) (s : State) : State := s

/-! ## The PPU's own VRAM access (42 R196-R199) -/

/-- `PalRead(a)` (42 R199). -/
def Ppu.palRead (p : Ppu) (a : Addr) : Byte :=
  storeByte .pal p.pal (palIndex a) &&& (if p.greyscale then 0x30 else 0x3F)

/-- `PalWrite(a, v)` (42 R198): all eight bits are stored. -/
def Ppu.palWrite (a : Addr) (v : Byte) (p : Ppu) : Ppu := { p with pal := Memory.put p.pal (palIndex a) v }

/-- `PpuRead(a)` (42 R196). -/
def ppuRead (a : Addr) (s : State) : Halting (Byte × State) :=
  let a := a &&& 0x3FFF
  if 0x3F00 ≤ a.toNat then .ok (s.ppu.palRead a, s) else chainRead memoryDeviceRead ppuChain a s

/-- `PpuWrite(a, v)` (42 R197). -/
def ppuWrite (a : Addr) (v : Byte) (s : State) : State :=
  let a := a &&& 0x3FFF
  if 0x3F00 ≤ a.toNat then s.mapPpu (Ppu.palWrite a v) else chainWrite memoryDeviceWrite ppuChain a v s

end Sys2Proof.Machine
end

