-- ==== Sys2Proof/Machine/Registers.lean ====
section
/-!
DEFINITION. The PPU as a device on the CPU chain: its eight registers (spec 42 R180-R195), and the CPU bus (40 R136).
-/
namespace Sys2Proof.Machine

/-- `VramIncrement()` (42 R193). -/
def Ppu.advanceV (p : Ppu) : Ppu := { p with v := vramIncrement p.v p.incrementMode }

/-! ## Reads -/

/-- Read register 2, Status (42 R183): flags 7:5 and a draw in 4:0; clears `vblank` and `w`. -/
def readStatus (s : State) : Byte × State :=
  (s.ppu.statusByte (Config.statusLowBits s.env.draws),
    { s with
      ppu := { s.ppu.setVblank false with w := false }
      env := { s.env with draws := s.env.draws + 1 } })

/-- `ppu.oam[i]` (10 R29). -/
def Ppu.oamByte (p : Ppu) (i : Nat) : Byte := storeByte .oam p.oam i

/-- Read register 4, OAM data (42 R187): the pointer does not advance. -/
def readOamData (s : State) : Byte × State := (s.ppu.oamByte s.ppu.oamAddr.toNat, s)

/-- The byte a buffered Data read returns and the state after it, from the byte fetched (42 R191). -/
def bufferedRead (a : Addr) (fetched : Byte) (s : State) : Byte × State :=
  (if 0x3F00 ≤ a.toNat then fetched else s.ppu.dataBuf, s.mapPpu (fun p => { p with dataBuf := fetched }))

/-- Read register 7, Data (42 R191): unbuffered by default. -/
def readData (s : State) : Halting (Byte × State) :=
  let a := Loopy.ppuAddress s.ppu.v
  match ppuRead a s with
  | .error s' => .error s'
  | .ok (b, s') =>
    if s.config.dataReadBuffered then
      .ok ((bufferedRead a b s').1, (bufferedRead a b s').2.mapPpu Ppu.advanceV)
    else .ok (b, s'.mapPpu Ppu.advanceV)

/-- The read of register `r` (42 R180). -/
def readRegister (r : Nat) (s : State) : Halting (Byte × State) :=
  match r with
  | 2 => .ok (readStatus s)
  | 4 => .ok (readOamData s)
  | 7 => readData s
  | _ => .ok (s.config.writeOnlyReadValue, s)

/-! ## Writes -/

/-- Write register 0, Control (42 R181). -/
def Ppu.writeControl (d : Byte) (p : Ppu) : Ppu := { p with ctrl := d, t := controlTransfer p.t d }

/-- Write register 1, Mask (42 R182). -/
def Ppu.writeMask (d : Byte) (p : Ppu) : Ppu := { p with mask := d }

/-- Write register 3, OAM address (42 R185). -/
def Ppu.writeOamAddr (d : Byte) (p : Ppu) : Ppu := { p with oamAddr := d }

/-- Write register 4, OAM data (42 R186): the pointer wraps at 256. -/
def Ppu.writeOamData (d : Byte) (p : Ppu) : Ppu :=
  { p with oam := Memory.put p.oam p.oamAddr.toNat d, oamAddr := p.oamAddr + 1 }

/-- Write register 5, Scroll (42 R188). -/
def Ppu.writeScroll (d : Byte) (p : Ppu) : Ppu :=
  if p.w then { p with t := scrollSecond p.t d, w := false }
  else { p with fineX := scrollFineX d, t := scrollFirst p.t d, w := true }

/-- Write register 6, Address (42 R190): the second half copies `t` into `v`. -/
def Ppu.writeAddress (d : Byte) (p : Ppu) : Ppu :=
  if p.w then { p with t := addressSecond p.t d, v := addressSecond p.t d, w := false }
  else { p with t := addressFirst p.t d, w := true }

/-- Write register 7, Data (42 R192). -/
def writeData (d : Byte) (s : State) : State :=
  (ppuWrite (Loopy.ppuAddress s.ppu.v) d s).mapPpu Ppu.advanceV

/-- The write of register `r` (42 R180). A write to Status is a no-op (42 R184). -/
def writeRegister (r : Nat) (d : Byte) (s : State) : State :=
  match r with
  | 0 => s.mapPpu (Ppu.writeControl d)
  | 1 => s.mapPpu (Ppu.writeMask d)
  | 2 => s
  | 3 => s.mapPpu (Ppu.writeOamAddr d)
  | 4 => s.mapPpu (Ppu.writeOamData d)
  | 5 => s.mapPpu (Ppu.writeScroll d)
  | 6 => s.mapPpu (Ppu.writeAddress d)
  | _ => writeData d s

/-! ## The PPU device and the CPU bus -/

/-- `read(Ppu, a)` (42 R180). -/
def ppuDeviceRead (a : Addr) (s : State) : Halting (Byte × State) :=
  if inRange s.config .ppu a then readRegister (regIndex a) (s.setClaim .ppu true) else declineRead .ppu s

/-- `write(Ppu, a, v)` (42 R180). -/
def ppuDeviceWrite (a : Addr) (v : Byte) (s : State) : State :=
  if inRange s.config .ppu a then writeRegister (regIndex a) v (s.setClaim .ppu true) else s.setClaim .ppu false

/-- `read(d, a)` of every device (40 R130). -/
def deviceRead (d : DeviceId) (a : Addr) (s : State) : Halting (Byte × State) :=
  match d with
  | .ppu => ppuDeviceRead a s
  | .cartCpu => memoryDeviceRead .cartCpu a s
  | .cartPpu => memoryDeviceRead .cartPpu a s
  | .workRam => memoryDeviceRead .workRam a s
  | .videoRam => memoryDeviceRead .videoRam a s

/-- `write(d, a, v)` of every device (40 R130). -/
def deviceWrite (d : DeviceId) (a : Addr) (v : Byte) (s : State) : State :=
  match d with
  | .ppu => ppuDeviceWrite a v s
  | .cartCpu => memoryDeviceWrite .cartCpu a v s
  | .cartPpu => memoryDeviceWrite .cartPpu a v s
  | .workRam => memoryDeviceWrite .workRam a v s
  | .videoRam => memoryDeviceWrite .videoRam a v s

/-- `CpuBusRead(a)` (40 R136). -/
def cpuBusRead (a : Addr) (s : State) : Halting (Byte × State) := chainRead deviceRead cpuChain a s

/-- `CpuBusWrite(a, v)` (40 R136). -/
def cpuBusWrite (a : Addr) (v : Byte) (s : State) : State := chainWrite deviceWrite cpuChain a v s

/-- A read whose byte goes to the agent that issued it; a faulting read returns none (60 R291). -/
def replyWith (r : Halting (Byte × State)) : Halting State :=
  match r with
  | .ok (b, s) => .ok (s.reply b)
  | .error s => .error s

/-- One chain transaction of the CPU collaborator (44 R274). -/
def cpuTransaction (t : CpuTxn) (s : State) : Halting State :=
  match t with
  | .read a => replyWith (cpuBusRead a s)
  | .write a d => .ok (cpuBusWrite a d s)

end Sys2Proof.Machine
end

