-- ==== Sys2Proof/Machine/CpuBus.lean ====
section
/-!
DEFINITION. The meanings of the CPU_RD and CPU_WR rows. The meaning of a CPU word is the chain resolution of its address
(spec 30 R93), so each row is the bus read or write of 40 R136 and differs from the others by its address alone.
-/
namespace Sys2Proof.Machine

/-- CPU_RD_WRAM: WorkRam (40 R139). -/
def execCpuRdWram (addr : Addr) (s : State) : Host.Outcome State Fault Refusal :=
  finish (cpuTransaction (.read addr) s)

/-- CPU_RD_REG0: Control, write-only: `WriteOnlyReadValue` (42 R189). -/
def execCpuRdReg0 (addr : Addr) (s : State) : Host.Outcome State Fault Refusal :=
  finish (cpuTransaction (.read addr) s)

/-- CPU_RD_REG1: Mask, write-only: `WriteOnlyReadValue` (42 R189). -/
def execCpuRdReg1 (addr : Addr) (s : State) : Host.Outcome State Fault Refusal :=
  finish (cpuTransaction (.read addr) s)

/-- CPU_RD_REG2: Status (42 R183). -/
def execCpuRdReg2 (addr : Addr) (s : State) : Host.Outcome State Fault Refusal :=
  finish (cpuTransaction (.read addr) s)

/-- CPU_RD_REG3: OAM address, write-only: `WriteOnlyReadValue` (42 R189). -/
def execCpuRdReg3 (addr : Addr) (s : State) : Host.Outcome State Fault Refusal :=
  finish (cpuTransaction (.read addr) s)

/-- CPU_RD_REG4: OAM data (42 R187). -/
def execCpuRdReg4 (addr : Addr) (s : State) : Host.Outcome State Fault Refusal :=
  finish (cpuTransaction (.read addr) s)

/-- CPU_RD_REG5: Scroll, write-only: `WriteOnlyReadValue` (42 R189). -/
def execCpuRdReg5 (addr : Addr) (s : State) : Host.Outcome State Fault Refusal :=
  finish (cpuTransaction (.read addr) s)

/-- CPU_RD_REG6: Address, write-only: `WriteOnlyReadValue` (42 R189). -/
def execCpuRdReg6 (addr : Addr) (s : State) : Host.Outcome State Fault Refusal :=
  finish (cpuTransaction (.read addr) s)

/-- CPU_RD_REG7: Data (42 R191). -/
def execCpuRdReg7 (addr : Addr) (s : State) : Host.Outcome State Fault Refusal :=
  finish (cpuTransaction (.read addr) s)

/-- CPU_RD_OPEN: open bus, 0 (40 R133). -/
def execCpuRdOpen (addr : Addr) (s : State) : Host.Outcome State Fault Refusal :=
  finish (cpuTransaction (.read addr) s)

/-- CPU_RD_PRG: PRG (41 R158). -/
def execCpuRdPrg (addr : Addr) (s : State) : Host.Outcome State Fault Refusal :=
  finish (cpuTransaction (.read addr) s)

/-- CPU_WR_WRAM: WorkRam (40 R139). -/
def execCpuWrWram (addr : Addr) (data : Byte) (s : State) : Host.Outcome State Fault Refusal :=
  finish (cpuTransaction (.write addr data) s)

/-- CPU_WR_REG0: Control (42 R181). -/
def execCpuWrReg0 (addr : Addr) (data : Byte) (s : State) : Host.Outcome State Fault Refusal :=
  finish (cpuTransaction (.write addr data) s)

/-- CPU_WR_REG1: Mask (42 R182). -/
def execCpuWrReg1 (addr : Addr) (data : Byte) (s : State) : Host.Outcome State Fault Refusal :=
  finish (cpuTransaction (.write addr data) s)

/-- CPU_WR_REG2: Status, a no-op (42 R184). -/
def execCpuWrReg2 (addr : Addr) (data : Byte) (s : State) : Host.Outcome State Fault Refusal :=
  finish (cpuTransaction (.write addr data) s)

/-- CPU_WR_REG3: OAM address (42 R185). -/
def execCpuWrReg3 (addr : Addr) (data : Byte) (s : State) : Host.Outcome State Fault Refusal :=
  finish (cpuTransaction (.write addr data) s)

/-- CPU_WR_REG4: OAM data (42 R186). -/
def execCpuWrReg4 (addr : Addr) (data : Byte) (s : State) : Host.Outcome State Fault Refusal :=
  finish (cpuTransaction (.write addr data) s)

/-- CPU_WR_REG5: Scroll (42 R188). -/
def execCpuWrReg5 (addr : Addr) (data : Byte) (s : State) : Host.Outcome State Fault Refusal :=
  finish (cpuTransaction (.write addr data) s)

/-- CPU_WR_REG6: Address (42 R190). -/
def execCpuWrReg6 (addr : Addr) (data : Byte) (s : State) : Host.Outcome State Fault Refusal :=
  finish (cpuTransaction (.write addr data) s)

/-- CPU_WR_REG7: Data (42 R192). -/
def execCpuWrReg7 (addr : Addr) (data : Byte) (s : State) : Host.Outcome State Fault Refusal :=
  finish (cpuTransaction (.write addr data) s)

/-- CPU_WR_OPEN: dropped (40 R134). -/
def execCpuWrOpen (addr : Addr) (data : Byte) (s : State) : Host.Outcome State Fault Refusal :=
  finish (cpuTransaction (.write addr data) s)

/-- CPU_WR_PRG: claimed and discarded (41 R159). -/
def execCpuWrPrg (addr : Addr) (data : Byte) (s : State) : Host.Outcome State Fault Refusal :=
  finish (cpuTransaction (.write addr data) s)

end Sys2Proof.Machine
end

