-- ==== Sys2Proof/Machine/PpuBus.lean ====
section
/-!
DEFINITION. The meanings of the PPU_RD and PPU_WR rows: `PpuRead` and `PpuWrite` of the address (spec 30 R91, 42 R196, R197).
-/
namespace Sys2Proof.Machine

/-- PPU_RD_CHR: pattern tables (41 R161). -/
def execPpuRdChr (addr : Addr) (s : State) : Host.Outcome State Fault Refusal := finish (replyWith (ppuRead addr s))

/-- PPU_RD_NT: nametables (40 R140). -/
def execPpuRdNt (addr : Addr) (s : State) : Host.Outcome State Fault Refusal := finish (replyWith (ppuRead addr s))

/-- PPU_RD_PAL: palette RAM (42 R199). -/
def execPpuRdPal (addr : Addr) (s : State) : Host.Outcome State Fault Refusal := finish (replyWith (ppuRead addr s))

/-- PPU_WR_CHR: CHR-RAM stores, CHR-ROM discards (41 R162). -/
def execPpuWrChr (addr : Addr) (data : Byte) (s : State) : Host.Outcome State Fault Refusal :=
  .next (ppuWrite addr data s)

/-- PPU_WR_NT: nametables (40 R140). -/
def execPpuWrNt (addr : Addr) (data : Byte) (s : State) : Host.Outcome State Fault Refusal :=
  .next (ppuWrite addr data s)

/-- PPU_WR_PAL: palette RAM (42 R198). -/
def execPpuWrPal (addr : Addr) (data : Byte) (s : State) : Host.Outcome State Fault Refusal :=
  .next (ppuWrite addr data s)

end Sys2Proof.Machine
end

