-- ==== Sys2Proof/Machine/Cartridge.lean ====
section
/-!
DEFINITION. The load protocol (spec 41_cartridge_mapper.md R163-R170) and the iNES header (30 R100).
-/
namespace Sys2Proof.Machine

/-- Byte `i` of an image at least that long. -/
def imageByte (b : List Byte) (i : Nat) : Byte := (b[i]?).getD 0

/-- The signature `4E 45 53 1A` (30 R100, 41 R164). -/
def hasSignature (b : List Byte) : Bool := b.take 4 == [0x4E, 0x45, 0x53, 0x1A]

/-- `format`: byte 7 bits 3:2 (41 R164). -/
def imageFormat (b : List Byte) : RomFormat := if imageByte b 7 &&& 0x0C == 0x08 then .nes2 else .iNES

/-- The header fields (41 R165). -/
def parseHeader (b : List Byte) : Header where
  format := imageFormat b
  prgBanks := imageByte b 4
  chrBanks := imageByte b 5
  mirroring := (imageByte b 6).getLsbD 0
  battery := (imageByte b 6).getLsbD 1
  trainer := (imageByte b 6).getLsbD 2
  fourScreen := (imageByte b 6).getLsbD 3
  mapperId := (imageByte b 7).extractLsb' 4 4 ++ (imageByte b 6).extractLsb' 4 4
  vsUnisystem := (imageByte b 7).getLsbD 0
  playChoice10 := (imageByte b 7).getLsbD 1
  prgRamSize := imageByte b 8
  tvSystem := imageByte b 9
  flags10 := imageByte b 10

/-- Where PRG begins (41 R166). -/
def Header.prgStart (h : Header) : Nat := 16 + (if h.trainer then 512 else 0)

def Header.prgLength (h : Header) : Nat := 16384 * h.prgBanks.toNat

def Header.chrLength (h : Header) : Nat := 8192 * h.chrBanks.toNat

/-- The length the header asks of the image (41 R167). -/
def Header.imageLength (h : Header) : Nat := h.prgStart + h.prgLength + h.chrLength

/-- `S.cart` after a successful load: the slices, the mapper, `loaded` (41 R166). -/
def Cart.populate (c : Cart) (h : Header) (b : List Byte) : Cart :=
  { c with
    loaded := true
    header := some h
    prg := (b.drop h.prgStart).take h.prgLength
    chr := if h.chrBanks == 0 then .ram [] else .rom ((b.drop (h.prgStart + h.prgLength)).take h.chrLength)
    mapper := selectMapper h.mapperId }

/-- A load-completion callback (44 R271). -/
def runCallback (cb : Callback) (s : State) : State :=
  match cb with
  | .onCartridgeLoaded => resetBoth s

/-- Every callback, in registration order (41 R169). -/
def runCallbacks : List Callback → State → State
  | [], s => s
  | cb :: cbs, s => runCallbacks cbs (runCallback cb s)

/-- Commit a parsed image and run the callbacks (41 R166). -/
def commitLoad (h : Header) (b : List Byte) (s : State) : State :=
  runCallbacks s.cart.callbacks { s with cart := s.cart.populate h b }

/-- `LoadCartridge` of an image's bytes (41 R164-R167). -/
def loadBytes (b : List Byte) (s : State) : Halting State :=
  if b.length < 16 then .error (raiseFault (.loadTruncated b.length 16) s)
  else if !hasSignature b then
    .error (raiseFault (.loadBadSignature (imageByte b 0) (imageByte b 1) (imageByte b 2) (imageByte b 3)) s)
  else
    let h := parseHeader b
    if h.format = .nes2 ∧ s.config.nes2Policy = .refuse then .ok (refuse .nes2NotDecoded s)
    else if b.length < h.imageLength then .error (raiseFault (.loadTruncated b.length h.imageLength) s)
    else .ok (commitLoad h b s)

/-- `LoadCartridge(image)` (41 R163-R170); a second load is refused before its image is looked at (41 R168; assumption 11). -/
def loadCartridge (img : Image) (s : State) : Halting State :=
  if s.cart.loaded then .ok (refuse .secondLoad s)
  else
    match img with
    | .unreadable => .error (raiseFault .loadUnreadable s)
    | .bytes b => loadBytes b s

end Sys2Proof.Machine
end

