-- ==== Sys2Proof/Machine/Render.lean ====
section
/-!
DEFINITION. The PPU's per-dot state machine (spec 43_ppu_rendering.md R220-R263): one `Clock()` is one dot.
-/
namespace Sys2Proof.Machine

/-! ## Frame events -/

/-- frameComplete pulse, clear half (43 R222). -/
def Ppu.clearFrameComplete (p : Ppu) : Ppu := { p with frameComplete := false }

def Sprite.clearShift (e : Sprite) : Sprite := { e with shLo := 0, shHi := 0 }

/-- Pre-render cycle 1 (43 R223): the three flags and all eight sprite shift pairs. -/
def Ppu.preRenderClear (p : Ppu) : Ppu :=
  { ((p.setVblank false).setSpriteZeroHit false).setSpriteOverflow false with
    sprites := p.sprites.map Sprite.clearShift }

/-- Scanline 241 cycle 1 (43 R255). -/
def Ppu.vblankStart (p : Ppu) : Ppu := (p.setVblank true).raiseNmi

/-! ## Background pipeline -/

/-- The fetch window's cycles (43 R224). -/
def inFetchWindow (c : Nat) : Bool :=
  (decide (2 ≤ c) && decide (c ≤ 257)) || (decide (321 ≤ c) && decide (c ≤ 337))

/-- Background shift (43 R225). -/
def Ppu.shiftBg (p : Ppu) : Ppu :=
  if p.showBg then
    { p with
      bgShPatLo := p.bgShPatLo <<< 1, bgShPatHi := p.bgShPatHi <<< 1,
      bgShAttrLo := p.bgShAttrLo <<< 1, bgShAttrHi := p.bgShAttrHi <<< 1 }
  else p

/-- One sprite's turn: count X down, or shift once armed (43 R226). -/
def Sprite.tick (e : Sprite) : Sprite :=
  if 0 < e.x.toNat then { e with x := e.x - 1 } else { e with shLo := e.shLo <<< 1, shHi := e.shHi <<< 1 }

/-- Apply `f` to the first `n` entries. -/
def onFirst (f : Sprite → Sprite) : Nat → List Sprite → List Sprite
  | 0, es => es
  | _ + 1, [] => []
  | n + 1, e :: es => f e :: onFirst f n es

/-- Sprite shift and X-counter (43 R226). -/
def Ppu.shiftSprites (c : Nat) (p : Ppu) : Ppu :=
  if p.showSprites && decide (c ≤ 257) then { p with sprites := onFirst Sprite.tick p.spriteCount p.sprites } else p

/-- `(sh & 0xFF00) | low` (43 R228). -/
def loadLow (sh : BitVec 16) (low : Byte) : BitVec 16 := (sh &&& 0xFF00) ||| low.setWidth 16

/-- `LoadBgShifters()` (43 R228). -/
def Ppu.loadBgShifters (p : Ppu) : Ppu :=
  { p with
    bgShPatLo := loadLow p.bgShPatLo p.bgNextLo
    bgShPatHi := loadLow p.bgShPatHi p.bgNextHi
    bgShAttrLo := loadLow p.bgShAttrLo (if p.bgNextAttr.getLsbD 0 then 0xFF else 0x00)
    bgShAttrHi := loadLow p.bgShAttrHi (if p.bgNextAttr.getLsbD 1 then 0xFF else 0x00) }

/-- Nametable fetch (43 R229). -/
def fetchNametable (s : State) : Halting State :=
  match ppuRead (nametableAddress s.ppu.v) s with
  | .ok (b, s') => .ok (s'.mapPpu (fun p => { p with bgNextTileId := b }))
  | .error s' => .error s'

/-- Attribute fetch (43 R230). -/
def fetchAttribute (s : State) : Halting State :=
  match ppuRead (attributeAddress s.ppu.v) s with
  | .ok (b, s') => .ok (s'.mapPpu (fun p => { p with bgNextAttr := attributeBits p.v b }))
  | .error s' => .error s'

/-- The low-plane address of the current background tile row (43 R232). -/
def Ppu.bgPatternAddr (p : Ppu) : Addr := bgPatternAddress p.bgPatternTable p.bgNextTileId (Loopy.fineY p.v)

/-- Pattern low fetch (43 R232). -/
def fetchPatternLow (s : State) : Halting State :=
  match ppuRead s.ppu.bgPatternAddr s with
  | .ok (b, s') => .ok (s'.mapPpu (fun p => { p with bgNextLo := b }))
  | .error s' => .error s'

/-- Pattern high fetch (43 R233). -/
def fetchPatternHigh (s : State) : Halting State :=
  match ppuRead (s.ppu.bgPatternAddr + 8) s with
  | .ok (b, s') => .ok (s'.mapPpu (fun p => { p with bgNextHi := b }))
  | .error s' => .error s'

/-! ## Scroll counters; each acts only when rendering is enabled (43 R234-R238) -/

def Ppu.incScrollX (p : Ppu) : Ppu := if p.renderingEnabled then { p with v := Machine.incScrollX p.v } else p

def Ppu.incScrollY (p : Ppu) : Ppu := if p.renderingEnabled then { p with v := Machine.incScrollY p.v } else p

def Ppu.transferX (p : Ppu) : Ppu := if p.renderingEnabled then { p with v := Machine.transferX p.v p.t } else p

def Ppu.transferY (p : Ppu) : Ppu := if p.renderingEnabled then { p with v := Machine.transferY p.v p.t } else p

/-- The fetch step of a window cycle, by `p = (c - 1) mod 8` (43 R227). -/
def fetchStep (c : Nat) (s : State) : Halting State :=
  match (c - 1) % 8 with
  | 0 => fetchNametable (s.mapPpu Ppu.loadBgShifters)
  | 2 => fetchAttribute s
  | 4 => fetchPatternLow s
  | 6 => fetchPatternHigh s
  | 7 => .ok (s.mapPpu Ppu.incScrollX)
  | _ => .ok s

/-- A dot of the fetch window: the shifts, then the fetch step (43 R224). -/
def windowEvents (c : Nat) (s : State) : Halting State :=
  if inFetchWindow c then fetchStep c ((s.mapPpu Ppu.shiftBg).mapPpu (Ppu.shiftSprites c)) else .ok s

/-! ## Sprites -/

/-- The indices of the primary-OAM entries that match `scanline`, the first eight in index order (43 R243, R245). -/
def Ppu.matchingEntries (p : Ppu) (scanline : Int) : List Nat :=
  ((List.range 64).filter (fun n => spriteMatches p.spriteHeight scanline (p.oamByte (4 * n)))).take 8

/-- Fill the slots with the entries found, 0xFF past them; the shift pairs are kept (43 R241, R244, R246). -/
def fillSlots (entry : Nat → Sprite → Sprite) : List Nat → List Sprite → List Sprite
  | _, [] => []
  | [], e :: es => { e with y := 0xFF, tile := 0xFF, attr := 0xFF, x := 0xFF } :: fillSlots entry [] es
  | n :: ns, e :: es => entry n e :: fillSlots entry ns es

/-- Copy OAM entry `n` into a slot (43 R246). -/
def Ppu.copyEntry (p : Ppu) (n : Nat) (e : Sprite) : Sprite :=
  { e with
    y := p.oamByte (4 * n), tile := p.oamByte (4 * n + 1), attr := p.oamByte (4 * n + 2), x := p.oamByte (4 * n + 3) }

/-- `EvaluateSprites()` for scanline `s` (43 R246). -/
def Ppu.evaluateSprites (scanline : Int) (p : Ppu) : Ppu :=
  let found := p.matchingEntries scanline
  { p.setSpriteOverflow (decide (found.length = 8)) with
    sprites := fillSlots p.copyEntry found p.sprites
    spriteCount := found.length
    zeroHitPossible := found.head? == some 0 }

/-- Slot `i`; a slot past the eight reads as cleared (no valid state holds one). -/
def Ppu.slot (p : Ppu) (i : Nat) : Sprite := (p.sprites[i]?).getD Sprite.cleared

/-- A slot with its shift pair loaded, reversed if the sprite is flipped horizontally (43 R249, R250). -/
def Sprite.loaded (lo hi : Byte) (e : Sprite) : Sprite :=
  { e with shLo := if e.flipH then rev8 lo else lo, shHi := if e.flipH then rev8 hi else hi }

/-- Load the shift pair of slot `i`, reversed if the sprite is flipped horizontally (43 R249). -/
def Ppu.loadSprite (i : Nat) (lo hi : Byte) (p : Ppu) : Ppu :=
  { p with sprites := p.sprites.set i ((p.slot i).loaded lo hi) }

/-- The fetch of one sprite's two pattern bytes (43 R249). -/
def fetchSprite (scanline : Int) (i : Nat) (s : State) : Halting State :=
  let addr := spritePatternAddress s.ppu scanline (s.ppu.slot i)
  match ppuRead addr s with
  | .error s' => .error s'
  | .ok (lo, s') =>
    match ppuRead (addr + 8) s' with
    | .error s'' => .error s''
    | .ok (hi, s'') => .ok (s''.mapPpu (Ppu.loadSprite i lo hi))

/-- The fetches of slots `i`, `i + 1`, ..., `n` of them. -/
def fetchSpritesFrom (scanline : Int) : Nat → Nat → State → Halting State
  | _, 0, s => .ok s
  | i, n + 1, s =>
    match fetchSprite scanline i s with
    | .error s' => .error s'
    | .ok s' => fetchSpritesFrom scanline (i + 1) n s'

/-- `FetchSprites()` for scanline `s` (43 R249). -/
def fetchSprites (scanline : Int) (s : State) : Halting State := fetchSpritesFrom scanline 0 s.ppu.spriteCount s

/-! ## Pixel composition -/

/-- The dot is visible: scanline 0-239, cycle 1-256 (43 R254, R256). -/
def Ppu.visibleDot (p : Ppu) : Bool :=
  decide (0 ≤ p.scanline) && decide (p.scanline ≤ 239) && decide (1 ≤ p.cycle) && decide (p.cycle ≤ 256)

/-- The left-clip region: cycles 1-8 (43 R251, R252). -/
def Ppu.leftColumn (p : Ppu) : Bool := decide (1 ≤ p.cycle) && decide (p.cycle ≤ 8)

/-- The bit of a background shifter selected by `0x8000 >> fineX` (43 R251). -/
def Ppu.bgBit (p : Ppu) (sh : BitVec 16) : Bool := sh &&& ((0x8000#16) >>> p.fineX.toNat) != 0

/-- Background pixel and palette (43 R251). -/
def Ppu.bgPixel (p : Ppu) : BitVec 2 × BitVec 2 :=
  if p.showBg && !(p.leftColumn && !p.showBgLeft) then
    (BitVec.ofBool (p.bgBit p.bgShPatHi) ++ BitVec.ofBool (p.bgBit p.bgShPatLo),
      BitVec.ofBool (p.bgBit p.bgShAttrHi) ++ BitVec.ofBool (p.bgBit p.bgShAttrLo))
  else (0, 0)

/-- A foreground pixel (43 R252). -/
structure FgPixel where
  pixel : BitVec 2
  pal : BitVec 3
  behind : Bool
  zeroRendered : Bool
  deriving DecidableEq, Repr

/-- No sprite pixel (43 R252). -/
def FgPixel.transparent : FgPixel := { pixel := 0, pal := 0, behind := false, zeroRendered := false }

/-- The pixel at a slot's shift registers (43 R252). -/
def Sprite.pixel (e : Sprite) : BitVec 2 := BitVec.ofBool (e.shHi.getLsbD 7) ++ BitVec.ofBool (e.shLo.getLsbD 7)

/-- The first armed sprite with a non-zero pixel, in priority order from index `i` (43 R252). -/
def firstOpaque : Nat → List Sprite → FgPixel
  | _, [] => FgPixel.transparent
  | i, e :: es =>
    if e.x == 0 && e.pixel != 0 then
      { pixel := e.pixel, pal := 4 + e.palette.setWidth 3, behind := e.behind, zeroRendered := i == 0 }
    else firstOpaque (i + 1) es

/-- Foreground pixel (43 R252). -/
def Ppu.fgPixel (p : Ppu) : FgPixel :=
  if p.showSprites && !(p.leftColumn && !p.showSpritesLeft) then firstOpaque 0 (p.sprites.take p.spriteCount)
  else FgPixel.transparent

/-- Priority resolution: the pixel and its palette (43 R253). -/
def resolvePixel (bg : BitVec 2 × BitVec 2) (fg : FgPixel) : BitVec 2 × BitVec 3 :=
  if bg.1 == 0 && fg.pixel == 0 then (0, 0)
  else if bg.1 == 0 then (fg.pixel, fg.pal)
  else if fg.pixel == 0 then (bg.1, bg.2.setWidth 3)
  else if fg.behind then (bg.1, bg.2.setWidth 3)
  else (fg.pixel, fg.pal)

/-- Sprite-0 hit at this dot (43 R254). -/
def Ppu.zeroHitNow (p : Ppu) : Bool :=
  p.bgPixel.1 != 0 && p.fgPixel.pixel != 0 && p.fgPixel.zeroRendered && p.zeroHitPossible && p.visibleDot

/-- The colour composed at this dot (43 R256). -/
def Ppu.colour (p : Ppu) : BitVec 6 :=
  let r := resolvePixel p.bgPixel p.fgPixel
  (p.palRead (pixelPaletteAddress r.2 r.1)).setWidth 6

/-- The frame-buffer key of the current dot: row `scanline`, column `cycle - 1` (43 R256). -/
def Ppu.dotKey (p : Ppu) : Nat := 256 * p.scanline.toNat + (p.cycle - 1)

/-- `ComposePixel()` (43 R251-R254, R256): the hit flag, and the frame buffer at visible dots. -/
def Ppu.composePixel (p : Ppu) : Ppu :=
  let q := if p.zeroHitNow then p.setSpriteZeroHit true else p
  if p.visibleDot then { q with fb := Memory.put q.fb p.dotKey p.colour } else q

/-! ## The dot counter -/

/-- The wrap of a frame, with the odd-frame skip (43 R257-R259). -/
def Ppu.wrapFrame (p : Ppu) : Ppu :=
  { p with
    scanline := -1
    frameComplete := true
    oddFrame := !p.oddFrame
    cycle := if !p.oddFrame && p.renderingEnabled then 1 else 0 }

/-- `Advance()` (43 R257). -/
def Ppu.advance (p : Ppu) : Ppu :=
  if p.cycle + 1 = 341 then
    if p.scanline + 1 = 261 then p.wrapFrame else { p with cycle := 0, scanline := p.scanline + 1 }
  else { p with cycle := p.cycle + 1 }

/-! ## One clock, in full (43 R260) -/

/-- Apply `f` when `b` holds. -/
def Ppu.when (b : Bool) (f : Ppu → Ppu) (p : Ppu) : Ppu := if b then f p else p

/-- The events of one dot after the fetch window and before the sprite fetch: cycles 256 and 257 (43 R235, R236, R246). -/
def Ppu.lineEndEvents (scanline : Int) (c : Nat) (p : Ppu) : Ppu :=
  (((p.when (c == 256) Ppu.incScrollY).when (c == 257) (fun q => q.loadBgShifters.transferX)).when
    (c == 257 && decide (0 ≤ scanline)) (Ppu.evaluateSprites scanline))

/-- The events of a dot of scanlines -1 to 239, in the order of 43 R260. -/
def renderEvents (scanline : Int) (c : Nat) (s : State) : Halting State :=
  match windowEvents c (s.mapPpu (Ppu.when (decide (scanline = -1) && c == 1) Ppu.preRenderClear)) with
  | .error s1 => .error s1
  | .ok s1 =>
    match (if c = 340 ∧ 0 ≤ scanline then fetchSprites scanline (s1.mapPpu (Ppu.lineEndEvents scanline c))
      else .ok (s1.mapPpu (Ppu.lineEndEvents scanline c))) with
    | .error s2 => .error s2
    | .ok s2 =>
      .ok (s2.mapPpu (Ppu.when (decide (scanline = -1) && (decide (280 ≤ c) && decide (c ≤ 304))) Ppu.transferY))

/-- The end of every dot: the vblank event, composition, and the counter (43 R260). -/
def Ppu.finishDot (scanline : Int) (c : Nat) (p : Ppu) : Ppu :=
  (p.when (decide (scanline = 241) && c == 1) Ppu.vblankStart).composePixel.advance

/-- `Clock()` (43 R260). -/
def clock (s : State) : Halting State :=
  let scanline := s.ppu.scanline
  let c := s.ppu.cycle
  let s0 := s.mapPpu Ppu.clearFrameComplete
  match (if -1 ≤ scanline ∧ scanline ≤ 239 then renderEvents scanline c s0 else .ok s0) with
  | .error s1 => .error s1
  | .ok s1 => .ok (s1.mapPpu (Ppu.finishDot scanline c))

/-- `clock(d)` of every device (40 R141, R142). -/
def deviceClock (d : DeviceId) (s : State) : Halting State :=
  match d with
  | .ppu => clock s
  | .cartCpu => .ok (memoryDeviceClock .cartCpu s)
  | .cartPpu => .ok (memoryDeviceClock .cartPpu s)
  | .workRam => .ok (memoryDeviceClock .workRam s)
  | .videoRam => .ok (memoryDeviceClock .videoRam s)

end Sys2Proof.Machine
end

