-- ==== Sys2Proof/Machine/System.lean ====
section
/-!
DEFINITION. The system manager (spec 44_system.md): the meanings of PPU_CLOCK, SYS_STEP, RESET, POWER_ON, LOAD_CART, SET_RUN
and of the reserved rows.
-/
namespace Sys2Proof.Machine

/-- `n` PPU clocks, stopping at a fault (60 R291). -/
def clocks : Nat → State → Halting State
  | 0, s => .ok s
  | n + 1, s =>
    match clock s with
    | .error s' => .error s'
    | .ok s' => clocks n s'

/-- The transactions of one `CpuClock()`, stopping at a fault (44 R273, R274). -/
def runBatch : List CpuTxn → State → Halting State
  | [], s => .ok s
  | t :: ts, s =>
    match cpuTransaction t s with
    | .error s' => .error s'
    | .ok s' => runBatch ts s'

/-- What the CPU collaborator does in its next clock: nothing when it has no more to do (assumption 4). -/
def nextBatch (s : State) : List CpuTxn := s.env.cpuBatches.headD []

/-- Take the collaborator's next batch off its list. -/
def dropBatch (s : State) : State := { s with env := { s.env with cpuBatches := s.env.cpuBatches.tail } }

/-- `CpuClock()` (44 R274). -/
def cpuClock (s : State) : Halting State := runBatch (nextBatch s) (callCpu .clock (dropBatch s))

/-- `Step()` (44 R273): three dots, the NMI delivery, one CPU clock; suppressed while paused (44 R278). -/
def systemStep (s : State) : Halting State :=
  if s.running then
    match clocks 3 s with
    | .error s' => .error s'
    | .ok s' => cpuClock (deliverNmi s')
  else .ok s

/-- `PowerOn()` (44 R272). -/
def powerOn (s : State) : State := if s.cart.loaded then resetBoth s else s

/-- PPU_CLOCK (44 R280): one dot, no CPU clock, no NMI delivery, paused or not. -/
def execPpuClock (s : State) : Host.Outcome State Fault Refusal := finish (deviceClock .ppu s)

/-- SYS_STEP (44 R273). -/
def execSysStep (s : State) : Host.Outcome State Fault Refusal := finish (systemStep s)

/-- RESET (44 R276): with or without a cartridge. -/
def execReset (s : State) : Host.Outcome State Fault Refusal := .next (resetBoth s)

/-- POWER_ON (44 R272). -/
def execPowerOn (s : State) : Host.Outcome State Fault Refusal := .next (powerOn s)

/-- LOAD_CART (41 R163-R170) of the image beside the word (30 R90). -/
def execLoadCart (s : State) : Host.Outcome State Fault Refusal := finish (loadCartridge s.env.operand s)

/-- SET_RUN (44 R278). -/
def execSetRun (run : Bool) (s : State) : Host.Outcome State Fault Refusal := .next { s with running := run }

/-- RESERVED_OP_A_B: `refuse(ReservedOp)` (30 R91, 60 R293): the mark is set and nothing else changes. -/
def execReservedOpAB (_op : BitVec 4) (_data : Byte) (_addr : Addr) (s : State) : Host.Outcome State Fault Refusal :=
  .next (refuse .reservedOp s)

/-- RESERVED_OP_C_F: `refuse(ReservedOp)` (30 R91, 60 R293): the mark is set and nothing else changes. -/
def execReservedOpCF (_op : BitVec 4) (_data : Byte) (_addr : Addr) (s : State) : Host.Outcome State Fault Refusal :=
  .next (refuse .reservedOp s)

end Sys2Proof.Machine
end

