-- ==== Sys2Proof/Syntax.lean ====
section
/-!
DEFINITION. The transactions of the block, one constructor per row of opcode_table.json (spec 30 R91, R93).
A CPU or PPU row carries the whole 16-bit address of its word: its class is a convenience of the decoder, its
meaning is the chain resolution of that address (30 R93).
-/
namespace Sys2Proof

inductive Instr where
  /-- CPU_RD_WRAM: CPU read, `addr & 0xE000 = 0x0000` -/
  | cpuRdWram (addr : Addr)
  /-- CPU_RD_REG0: CPU read of PPU register 0 (Control), `addr & 0xE007 = 0x2000` -/
  | cpuRdReg0 (addr : Addr)
  /-- CPU_RD_REG1: CPU read of PPU register 1 (Mask), `addr & 0xE007 = 0x2001` -/
  | cpuRdReg1 (addr : Addr)
  /-- CPU_RD_REG2: CPU read of PPU register 2 (Status), `addr & 0xE007 = 0x2002` -/
  | cpuRdReg2 (addr : Addr)
  /-- CPU_RD_REG3: CPU read of PPU register 3 (OAM address), `addr & 0xE007 = 0x2003` -/
  | cpuRdReg3 (addr : Addr)
  /-- CPU_RD_REG4: CPU read of PPU register 4 (OAM data), `addr & 0xE007 = 0x2004` -/
  | cpuRdReg4 (addr : Addr)
  /-- CPU_RD_REG5: CPU read of PPU register 5 (Scroll), `addr & 0xE007 = 0x2005` -/
  | cpuRdReg5 (addr : Addr)
  /-- CPU_RD_REG6: CPU read of PPU register 6 (Address), `addr & 0xE007 = 0x2006` -/
  | cpuRdReg6 (addr : Addr)
  /-- CPU_RD_REG7: CPU read of PPU register 7 (Data), `addr & 0xE007 = 0x2007` -/
  | cpuRdReg7 (addr : Addr)
  /-- CPU_RD_OPEN: CPU read, `addr & 0xC000 = 0x4000` -/
  | cpuRdOpen (addr : Addr)
  /-- CPU_RD_PRG: CPU read, `addr & 0x8000 = 0x8000` -/
  | cpuRdPrg (addr : Addr)
  /-- CPU_WR_WRAM: CPU write, `addr & 0xE000 = 0x0000` -/
  | cpuWrWram (addr : Addr) (data : Byte)
  /-- CPU_WR_REG0: CPU write of PPU register 0 (Control), `addr & 0xE007 = 0x2000` -/
  | cpuWrReg0 (addr : Addr) (data : Byte)
  /-- CPU_WR_REG1: CPU write of PPU register 1 (Mask), `addr & 0xE007 = 0x2001` -/
  | cpuWrReg1 (addr : Addr) (data : Byte)
  /-- CPU_WR_REG2: CPU write of PPU register 2 (Status), `addr & 0xE007 = 0x2002` -/
  | cpuWrReg2 (addr : Addr) (data : Byte)
  /-- CPU_WR_REG3: CPU write of PPU register 3 (OAM address), `addr & 0xE007 = 0x2003` -/
  | cpuWrReg3 (addr : Addr) (data : Byte)
  /-- CPU_WR_REG4: CPU write of PPU register 4 (OAM data), `addr & 0xE007 = 0x2004` -/
  | cpuWrReg4 (addr : Addr) (data : Byte)
  /-- CPU_WR_REG5: CPU write of PPU register 5 (Scroll), `addr & 0xE007 = 0x2005` -/
  | cpuWrReg5 (addr : Addr) (data : Byte)
  /-- CPU_WR_REG6: CPU write of PPU register 6 (Address), `addr & 0xE007 = 0x2006` -/
  | cpuWrReg6 (addr : Addr) (data : Byte)
  /-- CPU_WR_REG7: CPU write of PPU register 7 (Data), `addr & 0xE007 = 0x2007` -/
  | cpuWrReg7 (addr : Addr) (data : Byte)
  /-- CPU_WR_OPEN: CPU write, `addr & 0xC000 = 0x4000` -/
  | cpuWrOpen (addr : Addr) (data : Byte)
  /-- CPU_WR_PRG: CPU write, `addr & 0x8000 = 0x8000` -/
  | cpuWrPrg (addr : Addr) (data : Byte)
  /-- PPU_RD_CHR: PPU-space read, `addr & 0xE000 = 0x0000` -/
  | ppuRdChr (addr : Addr)
  /-- PPU_RD_NT: PPU-space read, `addr & 0xE000 = 0x2000` and not palette -/
  | ppuRdNt (addr : Addr)
  /-- PPU_RD_PAL: PPU-space read, `addr & 0xFF00 = 0x3F00` -/
  | ppuRdPal (addr : Addr)
  /-- PPU_WR_CHR: PPU-space write, `addr & 0xE000 = 0x0000` -/
  | ppuWrChr (addr : Addr) (data : Byte)
  /-- PPU_WR_NT: PPU-space write, `addr & 0xE000 = 0x2000` and not palette -/
  | ppuWrNt (addr : Addr) (data : Byte)
  /-- PPU_WR_PAL: PPU-space write, `addr & 0xFF00 = 0x3F00` -/
  | ppuWrPal (addr : Addr) (data : Byte)
  /-- PPU_CLOCK: one PPU dot -/
  | ppuClock
  /-- SYS_STEP: one system step -/
  | sysStep
  /-- RESET -/
  | reset
  /-- POWER_ON -/
  | powerOn
  /-- LOAD_CART; its image is the out-of-band operand, held in `env.operand` (assumption 2) -/
  | loadCart
  /-- SET_RUN: `run` is data bit 0 -/
  | setRun (run : Bool)
  /-- RESERVED_OP_A_B: operation codes 0xA and 0xB -/
  | reservedOpAB (op : BitVec 4) (data : Byte) (addr : Addr)
  /-- RESERVED_OP_C_F: operation codes 0xC to 0xF -/
  | reservedOpCF (op : BitVec 4) (data : Byte) (addr : Addr)
  deriving DecidableEq, Repr

end Sys2Proof
end

