-- ==== Sys2Proof/Machine/Dispatch.lean ====
section
/-!
DEFINITION. One arm per row of opcode_table.json; each calls that row's meaning.
-/
namespace Sys2Proof.Machine

def exec (i : Instr) (s : State) : Host.Outcome State Fault Refusal :=
  match i with
  | .cpuRdWram addr => Sys2Proof.Machine.execCpuRdWram addr s
  | .cpuRdReg0 addr => Sys2Proof.Machine.execCpuRdReg0 addr s
  | .cpuRdReg1 addr => Sys2Proof.Machine.execCpuRdReg1 addr s
  | .cpuRdReg2 addr => Sys2Proof.Machine.execCpuRdReg2 addr s
  | .cpuRdReg3 addr => Sys2Proof.Machine.execCpuRdReg3 addr s
  | .cpuRdReg4 addr => Sys2Proof.Machine.execCpuRdReg4 addr s
  | .cpuRdReg5 addr => Sys2Proof.Machine.execCpuRdReg5 addr s
  | .cpuRdReg6 addr => Sys2Proof.Machine.execCpuRdReg6 addr s
  | .cpuRdReg7 addr => Sys2Proof.Machine.execCpuRdReg7 addr s
  | .cpuRdOpen addr => Sys2Proof.Machine.execCpuRdOpen addr s
  | .cpuRdPrg addr => Sys2Proof.Machine.execCpuRdPrg addr s
  | .cpuWrWram addr data => Sys2Proof.Machine.execCpuWrWram addr data s
  | .cpuWrReg0 addr data => Sys2Proof.Machine.execCpuWrReg0 addr data s
  | .cpuWrReg1 addr data => Sys2Proof.Machine.execCpuWrReg1 addr data s
  | .cpuWrReg2 addr data => Sys2Proof.Machine.execCpuWrReg2 addr data s
  | .cpuWrReg3 addr data => Sys2Proof.Machine.execCpuWrReg3 addr data s
  | .cpuWrReg4 addr data => Sys2Proof.Machine.execCpuWrReg4 addr data s
  | .cpuWrReg5 addr data => Sys2Proof.Machine.execCpuWrReg5 addr data s
  | .cpuWrReg6 addr data => Sys2Proof.Machine.execCpuWrReg6 addr data s
  | .cpuWrReg7 addr data => Sys2Proof.Machine.execCpuWrReg7 addr data s
  | .cpuWrOpen addr data => Sys2Proof.Machine.execCpuWrOpen addr data s
  | .cpuWrPrg addr data => Sys2Proof.Machine.execCpuWrPrg addr data s
  | .ppuRdChr addr => Sys2Proof.Machine.execPpuRdChr addr s
  | .ppuRdNt addr => Sys2Proof.Machine.execPpuRdNt addr s
  | .ppuRdPal addr => Sys2Proof.Machine.execPpuRdPal addr s
  | .ppuWrChr addr data => Sys2Proof.Machine.execPpuWrChr addr data s
  | .ppuWrNt addr data => Sys2Proof.Machine.execPpuWrNt addr data s
  | .ppuWrPal addr data => Sys2Proof.Machine.execPpuWrPal addr data s
  | .ppuClock => Sys2Proof.Machine.execPpuClock s
  | .sysStep => Sys2Proof.Machine.execSysStep s
  | .reset => Sys2Proof.Machine.execReset s
  | .powerOn => Sys2Proof.Machine.execPowerOn s
  | .loadCart => Sys2Proof.Machine.execLoadCart s
  | .setRun run => Sys2Proof.Machine.execSetRun run s
  | .reservedOpAB op data addr => Sys2Proof.Machine.execReservedOpAB op data addr s
  | .reservedOpCF op data addr => Sys2Proof.Machine.execReservedOpCF op data addr s

end Sys2Proof.Machine
end

