-- ==== Sys2Proof/WellFormed.lean ====
section
/-!
DEFINITION. Which terms of Instr are words of the table: each row's own mask and match (opcode_table.json; spec 30 R93),
written independently of the decoder.
-/
namespace Sys2Proof

/-- The row of a CPU or PPU address class: `addr & mask = value` (30 R93). -/
def addrMatches (mask value addr : Addr) : Bool := addr &&& mask == value

/-- A term is well formed when its operands lie in the row its constructor names (30 R91-R93). -/
def Instr.wf : Instr → Bool
  | .cpuRdWram addr => addrMatches 0xE000 0x0000 addr
  | .cpuRdReg0 addr => addrMatches 0xE007 0x2000 addr
  | .cpuRdReg1 addr => addrMatches 0xE007 0x2001 addr
  | .cpuRdReg2 addr => addrMatches 0xE007 0x2002 addr
  | .cpuRdReg3 addr => addrMatches 0xE007 0x2003 addr
  | .cpuRdReg4 addr => addrMatches 0xE007 0x2004 addr
  | .cpuRdReg5 addr => addrMatches 0xE007 0x2005 addr
  | .cpuRdReg6 addr => addrMatches 0xE007 0x2006 addr
  | .cpuRdReg7 addr => addrMatches 0xE007 0x2007 addr
  | .cpuRdOpen addr => addrMatches 0xC000 0x4000 addr
  | .cpuRdPrg addr => addrMatches 0x8000 0x8000 addr
  | .cpuWrWram addr _ => addrMatches 0xE000 0x0000 addr
  | .cpuWrReg0 addr _ => addrMatches 0xE007 0x2000 addr
  | .cpuWrReg1 addr _ => addrMatches 0xE007 0x2001 addr
  | .cpuWrReg2 addr _ => addrMatches 0xE007 0x2002 addr
  | .cpuWrReg3 addr _ => addrMatches 0xE007 0x2003 addr
  | .cpuWrReg4 addr _ => addrMatches 0xE007 0x2004 addr
  | .cpuWrReg5 addr _ => addrMatches 0xE007 0x2005 addr
  | .cpuWrReg6 addr _ => addrMatches 0xE007 0x2006 addr
  | .cpuWrReg7 addr _ => addrMatches 0xE007 0x2007 addr
  | .cpuWrOpen addr _ => addrMatches 0xC000 0x4000 addr
  | .cpuWrPrg addr _ => addrMatches 0x8000 0x8000 addr
  | .ppuRdChr addr => addrMatches 0xE000 0x0000 addr
  | .ppuRdNt addr => addrMatches 0xE000 0x2000 addr && !addrMatches 0xFF00 0x3F00 addr
  | .ppuRdPal addr => addrMatches 0xFF00 0x3F00 addr
  | .ppuWrChr addr _ => addrMatches 0xE000 0x0000 addr
  | .ppuWrNt addr _ => addrMatches 0xE000 0x2000 addr && !addrMatches 0xFF00 0x3F00 addr
  | .ppuWrPal addr _ => addrMatches 0xFF00 0x3F00 addr
  | .ppuClock => true
  | .sysStep => true
  | .reset => true
  | .powerOn => true
  | .loadCart => true
  | .setRun _ => true
  | .reservedOpAB op _ _ => op == 0xA || op == 0xB
  | .reservedOpCF op _ _ => op == 0xC || op == 0xD || op == 0xE || op == 0xF

/-- The row's `mask` of opcode_table.json. -/
def Instr.rowMask : Instr → Word
  | .cpuRdWram _ => 0xFFFE000
  | .cpuRdReg0 _ => 0xFFFE007
  | .cpuRdReg1 _ => 0xFFFE007
  | .cpuRdReg2 _ => 0xFFFE007
  | .cpuRdReg3 _ => 0xFFFE007
  | .cpuRdReg4 _ => 0xFFFE007
  | .cpuRdReg5 _ => 0xFFFE007
  | .cpuRdReg6 _ => 0xFFFE007
  | .cpuRdReg7 _ => 0xFFFE007
  | .cpuRdOpen _ => 0xFFFC000
  | .cpuRdPrg _ => 0xFFF8000
  | .cpuWrWram _ _ => 0xF00E000
  | .cpuWrReg0 _ _ => 0xF00E007
  | .cpuWrReg1 _ _ => 0xF00E007
  | .cpuWrReg2 _ _ => 0xF00E007
  | .cpuWrReg3 _ _ => 0xF00E007
  | .cpuWrReg4 _ _ => 0xF00E007
  | .cpuWrReg5 _ _ => 0xF00E007
  | .cpuWrReg6 _ _ => 0xF00E007
  | .cpuWrReg7 _ _ => 0xF00E007
  | .cpuWrOpen _ _ => 0xF00C000
  | .cpuWrPrg _ _ => 0xF008000
  | .ppuRdChr _ => 0xFFFE000
  | .ppuRdNt _ => 0xFFFE000
  | .ppuRdPal _ => 0xFFFFF00
  | .ppuWrChr _ _ => 0xF00E000
  | .ppuWrNt _ _ => 0xF00E000
  | .ppuWrPal _ _ => 0xF00FF00
  | .ppuClock => 0xFFFFFFF
  | .sysStep => 0xFFFFFFF
  | .reset => 0xFFFFFFF
  | .powerOn => 0xFFFFFFF
  | .loadCart => 0xFFFFFFF
  | .setRun _ => 0xFFEFFFF
  | .reservedOpAB _ _ _ => 0xE000000
  | .reservedOpCF _ _ _ => 0xC000000

/-- The row's `match` of opcode_table.json. -/
def Instr.rowMatch : Instr → Word
  | .cpuRdWram _ => 0x0000000
  | .cpuRdReg0 _ => 0x0002000
  | .cpuRdReg1 _ => 0x0002001
  | .cpuRdReg2 _ => 0x0002002
  | .cpuRdReg3 _ => 0x0002003
  | .cpuRdReg4 _ => 0x0002004
  | .cpuRdReg5 _ => 0x0002005
  | .cpuRdReg6 _ => 0x0002006
  | .cpuRdReg7 _ => 0x0002007
  | .cpuRdOpen _ => 0x0004000
  | .cpuRdPrg _ => 0x0008000
  | .cpuWrWram _ _ => 0x1000000
  | .cpuWrReg0 _ _ => 0x1002000
  | .cpuWrReg1 _ _ => 0x1002001
  | .cpuWrReg2 _ _ => 0x1002002
  | .cpuWrReg3 _ _ => 0x1002003
  | .cpuWrReg4 _ _ => 0x1002004
  | .cpuWrReg5 _ _ => 0x1002005
  | .cpuWrReg6 _ _ => 0x1002006
  | .cpuWrReg7 _ _ => 0x1002007
  | .cpuWrOpen _ _ => 0x1004000
  | .cpuWrPrg _ _ => 0x1008000
  | .ppuRdChr _ => 0x2000000
  | .ppuRdNt _ => 0x2002000
  | .ppuRdPal _ => 0x2003F00
  | .ppuWrChr _ _ => 0x3000000
  | .ppuWrNt _ _ => 0x3002000
  | .ppuWrPal _ _ => 0x3003F00
  | .ppuClock => 0x4000000
  | .sysStep => 0x5000000
  | .reset => 0x6000000
  | .powerOn => 0x7000000
  | .loadCart => 0x8000000
  | .setRun _ => 0x9000000
  | .reservedOpAB _ _ _ => 0xA000000
  | .reservedOpCF _ _ _ => 0xC000000

end Sys2Proof
end

