-- ==== Sys2Proof/Decode.lean ====
section
/-!
DEFINITION. The decoder of the 28-bit transaction word (spec 30 R90-R93), total on every word, and after it the encoder.
-/
namespace Sys2Proof

/-- Why a word is no row of the table (30 R92). -/
inductive Reject where
  /-- a non-zero reserved field: the step answers by `refuse(ReservedField)` -/
  | reservedField
  deriving DecidableEq, Repr

/-- `op[27:24]` (30 R90). -/
def opField (w : Word) : BitVec 4 := w.extractLsb' 24 4

/-- `data[23:16]` (30 R90). -/
def dataField (w : Word) : Byte := w.extractLsb' 16 8

/-- `addr[15:0]` (30 R90). -/
def addrField (w : Word) : Addr := w.extractLsb' 0 16

/-- The register row of a CPU read, from the low three address bits (30 R93). -/
def cpuReadRegister (addr : Addr) : Instr :=
  match (addr &&& 0x0007).toNat with
  | 0 => .cpuRdReg0 addr
  | 1 => .cpuRdReg1 addr
  | 2 => .cpuRdReg2 addr
  | 3 => .cpuRdReg3 addr
  | 4 => .cpuRdReg4 addr
  | 5 => .cpuRdReg5 addr
  | 6 => .cpuRdReg6 addr
  | _ => .cpuRdReg7 addr

/-- The register row of a CPU write, from the low three address bits (30 R93). -/
def cpuWriteRegister (addr : Addr) (data : Byte) : Instr :=
  match (addr &&& 0x0007).toNat with
  | 0 => .cpuWrReg0 addr data
  | 1 => .cpuWrReg1 addr data
  | 2 => .cpuWrReg2 addr data
  | 3 => .cpuWrReg3 addr data
  | 4 => .cpuWrReg4 addr data
  | 5 => .cpuWrReg5 addr data
  | 6 => .cpuWrReg6 addr data
  | _ => .cpuWrReg7 addr data

/-- The CPU_RD rows by address class (30 R93). -/
def decodeCpuRead (addr : Addr) : Instr :=
  if addrMatches 0xE000 0x0000 addr then .cpuRdWram addr
  else if addrMatches 0xE000 0x2000 addr then cpuReadRegister addr
  else if addrMatches 0xC000 0x4000 addr then .cpuRdOpen addr
  else .cpuRdPrg addr

/-- The CPU_WR rows by address class (30 R93). -/
def decodeCpuWrite (addr : Addr) (data : Byte) : Instr :=
  if addrMatches 0xE000 0x0000 addr then .cpuWrWram addr data
  else if addrMatches 0xE000 0x2000 addr then cpuWriteRegister addr data
  else if addrMatches 0xC000 0x4000 addr then .cpuWrOpen addr data
  else .cpuWrPrg addr data

/-- The PPU_RD rows of a 14-bit address; the palette row has the longer mask and wins (30 R93). -/
def decodePpuRead (addr : Addr) : Instr :=
  if addrMatches 0xFF00 0x3F00 addr then .ppuRdPal addr
  else if addrMatches 0xE000 0x2000 addr then .ppuRdNt addr
  else .ppuRdChr addr

/-- The PPU_WR rows of a 14-bit address; the palette row has the longer mask and wins (30 R93). -/
def decodePpuWrite (addr : Addr) (data : Byte) : Instr :=
  if addrMatches 0xFF00 0x3F00 addr then .ppuWrPal addr data
  else if addrMatches 0xE000 0x2000 addr then .ppuWrNt addr data
  else .ppuWrChr addr data

/-- `addr[15:14] = 0`, asked of every PPU_RD and PPU_WR word (30 R91, R92). -/
def addr14 (addr : Addr) : Bool := addrMatches 0xC000 0x0000 addr

/-- An instruction whose reserved fields are zero, or the rejection by name (30 R92). -/
def unlessReserved (fieldsZero : Bool) (i : Instr) : Except Reject Instr :=
  if fieldsZero then .ok i else .error .reservedField

/-- The decoder (30 R91-R93): every word is a row of the table or rejected. -/
def decode (w : Word) : Except Reject Instr :=
  let data := dataField w
  let addr := addrField w
  match (opField w).toNat with
  | 0x0 => unlessReserved (data == 0) (decodeCpuRead addr)
  | 0x1 => .ok (decodeCpuWrite addr data)
  | 0x2 => unlessReserved (data == 0 && addr14 addr) (decodePpuRead addr)
  | 0x3 => unlessReserved (addr14 addr) (decodePpuWrite addr data)
  | 0x4 => unlessReserved (data == 0 && addr == 0) .ppuClock
  | 0x5 => unlessReserved (data == 0 && addr == 0) .sysStep
  | 0x6 => unlessReserved (data == 0 && addr == 0) .reset
  | 0x7 => unlessReserved (data == 0 && addr == 0) .powerOn
  | 0x8 => unlessReserved (data == 0 && addr == 0) .loadCart
  | 0x9 => unlessReserved (data &&& 0xFE == 0 && addr == 0) (.setRun (data.getLsbD 0))
  | 0xA | 0xB => .ok (.reservedOpAB (opField w) data addr)
  | _ => .ok (.reservedOpCF (opField w) data addr)

/-- Lay out the three fields of a word (30 R90). -/
def assembleWord (op : BitVec 4) (data : Byte) (addr : Addr) : Word := op ++ data ++ addr

/-- The encoder, from the same table (30 R90, R91). -/
def encode : Instr → Word
  | .cpuRdWram addr => assembleWord 0x0 0 addr
  | .cpuRdReg0 addr => assembleWord 0x0 0 addr
  | .cpuRdReg1 addr => assembleWord 0x0 0 addr
  | .cpuRdReg2 addr => assembleWord 0x0 0 addr
  | .cpuRdReg3 addr => assembleWord 0x0 0 addr
  | .cpuRdReg4 addr => assembleWord 0x0 0 addr
  | .cpuRdReg5 addr => assembleWord 0x0 0 addr
  | .cpuRdReg6 addr => assembleWord 0x0 0 addr
  | .cpuRdReg7 addr => assembleWord 0x0 0 addr
  | .cpuRdOpen addr => assembleWord 0x0 0 addr
  | .cpuRdPrg addr => assembleWord 0x0 0 addr
  | .cpuWrWram addr data => assembleWord 0x1 data addr
  | .cpuWrReg0 addr data => assembleWord 0x1 data addr
  | .cpuWrReg1 addr data => assembleWord 0x1 data addr
  | .cpuWrReg2 addr data => assembleWord 0x1 data addr
  | .cpuWrReg3 addr data => assembleWord 0x1 data addr
  | .cpuWrReg4 addr data => assembleWord 0x1 data addr
  | .cpuWrReg5 addr data => assembleWord 0x1 data addr
  | .cpuWrReg6 addr data => assembleWord 0x1 data addr
  | .cpuWrReg7 addr data => assembleWord 0x1 data addr
  | .cpuWrOpen addr data => assembleWord 0x1 data addr
  | .cpuWrPrg addr data => assembleWord 0x1 data addr
  | .ppuRdChr addr => assembleWord 0x2 0 addr
  | .ppuRdNt addr => assembleWord 0x2 0 addr
  | .ppuRdPal addr => assembleWord 0x2 0 addr
  | .ppuWrChr addr data => assembleWord 0x3 data addr
  | .ppuWrNt addr data => assembleWord 0x3 data addr
  | .ppuWrPal addr data => assembleWord 0x3 data addr
  | .ppuClock => assembleWord 0x4 0 0
  | .sysStep => assembleWord 0x5 0 0
  | .reset => assembleWord 0x6 0 0
  | .powerOn => assembleWord 0x7 0 0
  | .loadCart => assembleWord 0x8 0 0
  | .setRun run => assembleWord 0x9 (if run then 1 else 0) 0
  | .reservedOpAB op data addr => assembleWord op data addr
  | .reservedOpCF op data addr => assembleWord op data addr

/-- The word of a host query: the table's bits, the 4 bits above bit 27 being zero (30 R90). -/
def wordOfBits (_nbits w : Nat) : Option Word :=
  if w < 2 ^ 28 then some (BitVec.ofNat 28 w) else none

/-- The instruction this decoder reads from a word whose bits are `w`; none where it rejects the word. A word is 28 bits
wide whatever `nbits` says, and no bit above them exists (30 R90). -/
def decodeTableWord (nbits w : Nat) : Option Instr :=
  match wordOfBits nbits w with
  | none => none
  | some word =>
    match decode word with
    | .ok i => some i
    | .error _ => none

end Sys2Proof
end

