-- ==== Sys2Proof/Machine/Fetch.lean ====
section
/-!
DEFINITION. How a word reaches the block. There is no program counter (spec 10 R23): the agents issue words one after the
other (30 R90, 00 R6), and the model holds those still to come in `env.requests` (assumption 1).
-/
namespace Sys2Proof.Machine

/-- What the next word asks for. -/
inductive Fetched where
  /-- no agent issues a word -/
  | idle
  /-- the word has no effect: the state is faulted (60 R291), or the word was refused for a reserved field (30 R92) -/
  | done (s : State)
  /-- the word is this instruction, to be executed in this state -/
  | run (i : Instr) (s : State)
  deriving DecidableEq, Repr

/-- The state in which a word executes: it is off the list and its image is the operand (assumption 2). -/
def takeRequest (r : Request) (rest : List Request) (s : State) : State :=
  { s with env := { s.env with requests := rest, operand := r.image } }

/-- Take the next word. A faulted state ignores it (60 R291); a word with a non-zero reserved field is refused (30 R92). -/
def fetchWord (s : State) : Fetched :=
  match s.env.requests with
  | [] => .idle
  | r :: rest =>
    if s.fault.isSome then .done (takeRequest r rest s)
    else
      match decode r.word with
      | .error .reservedField => .done (refuse .reservedField (takeRequest r rest s))
      | .ok i => .run i (takeRequest r rest s)

/-- The shortest valid image: signature, no PRG bank, no CHR bank (so CHR-RAM), NROM (30 R100). -/
def minimalImage : Image := .bytes ([0x4E, 0x45, 0x53, 0x1A] ++ List.replicate 12 0x00)

/-- The request of a host query: LOAD_CART comes with the minimal image, other words with none (assumption 2). -/
def hostRequest (w : Nat) : Request :=
  let word : Word := BitVec.ofNat 28 w
  { word := word, image := if opField word == 0x8 then minimalImage else .unreadable }

/-- Put a word in front of those still to be issued. -/
def issueFirst (r : Request) (s : State) : State := { s with env := { s.env with requests := r :: s.env.requests } }

end Sys2Proof.Machine
end

