-- ==== Sys2Proof/Machine/Step.lean ====
section
/-!
DEFINITION. One step: the next word an agent issues is taken, decoded and executed (spec 30 R90-R92, 20 R67).
-/
namespace Sys2Proof.Machine

/-- One step. With no word to take nothing happens (assumption 1). -/
def step (s : State) : Host.Outcome State Fault Refusal :=
  match fetchWord s with
  | .idle => .next s
  | .done s' => .next s'
  | .run i s' => exec i s'

/-- `s` with the word whose bits are `w` issued next, before any other (assumption 1). -/
def State.withFetchWord (s : State) (_nbits w : Nat) : State := issueFirst (hostRequest w) s

end Sys2Proof.Machine
end

