-- ==== Sys2Proof/Safety.lean ====
section
/-!
DEFINITION. What claims are stated in: a clean run, the invariant every step keeps, and the value and the claim flags of an
access as plain functions of the state, written from spec 20 R61-R64 and 40 R133-R135 beside the operations themselves.
-/
namespace Sys2Proof.Machine

/-- No fault and no refusal so far (60 R291, R293). -/
def State.clean (s : State) : Prop := s.fault = none ∧ s.refused = none

/-! ## Accesses as functions of the state -/

/-- The flags of the CPU chain after a transaction claimed by `d`, or by nobody (40 R133-R135). -/
def Claims.cpu (c : Claims) (d : Option DeviceId) : Claims :=
  { c with cartCpu := d == some .cartCpu, ppu := d == some .ppu, workRam := d == some .workRam }

/-- The flags of the PPU chain after a transaction claimed by `d`, or by nobody (40 R133-R135). -/
def Claims.ppuSide (c : Claims) (d : Option DeviceId) : Claims :=
  { c with cartPpu := d == some .cartPpu, videoRam := d == some .videoRam }

/-- The state once the PPU has claimed a CPU transaction. -/
def State.ppuClaims (s : State) : State := { s with claimed := Claims.cpu s.claimed (some .ppu) }

/-- The device that answers the 14-bit PPU address `a` below 0x3F00 (20 R62). -/
def State.ppuResponder (s : State) (a : Addr) : Option DeviceId :=
  if s.cart.loaded ∧ a.toNat ≤ 0x1FFF then some .cartPpu
  else if inRange s.config .videoRam a then some .videoRam
  else none

/-- The byte at PPU address `a`, with no side effect (20 R62). -/
def State.ppuPeek (s : State) (a : Addr) : Byte :=
  let a := a &&& 0x3FFF
  if 0x3F00 ≤ a.toNat then s.ppu.palRead a
  else
    match s.ppuResponder a with
    | some .cartPpu => (ChrStore.byte? s.cart.chr a.toNat).getD 0
    | some .videoRam => storeByte .vram s.vram (nametableOffset s.config s.cart a)
    | _ => 0

/-- The claim flags after an access to PPU address `a`: palette accesses touch none (42 R196, R197). -/
def State.claimsAfterPpu (s : State) (a : Addr) : Claims :=
  let a := a &&& 0x3FFF
  if 0x3F00 ≤ a.toNat then s.claimed else Claims.ppuSide s.claimed (s.ppuResponder a)

/-- The state after a byte is written to PPU address `a` (20 R62): palette RAM, CHR, VideoRam, or dropped. -/
def State.ppuStore (s : State) (a : Addr) (d : Byte) : State :=
  let a := a &&& 0x3FFF
  if 0x3F00 ≤ a.toNat then { s with ppu := { s.ppu with pal := Memory.put s.ppu.pal (palIndex a) d } }
  else
    match s.ppuResponder a with
    | some .cartPpu =>
      { s with
        claimed := Claims.ppuSide s.claimed (some .cartPpu)
        cart := { s.cart with chr := ChrStore.write s.cart.chr a.toNat d } }
    | some .videoRam =>
      { s with
        claimed := Claims.ppuSide s.claimed (some .videoRam)
        vram := Memory.put s.vram (nametableOffset s.config s.cart a) d }
    | _ => { s with claimed := Claims.ppuSide s.claimed none }

/-- The storage cell behind a PPU address (20 R62): equal cells are mirrors of each other. -/
inductive PpuCell where
  | pal (index : Nat)
  | chr (offset : Nat)
  | vram (offset : Nat)
  | none
  deriving DecidableEq, Repr

/-- The cell that PPU address `a` names, after the 14-bit mask (20 R62-R64). -/
def State.ppuCell (s : State) (a : Addr) : PpuCell :=
  let a := a &&& 0x3FFF
  if 0x3F00 ≤ a.toNat then .pal (palIndex a)
  else
    match s.ppuResponder a with
    | some .cartPpu => .chr a.toNat
    | some .videoRam => .vram (nametableOffset s.config s.cart a)
    | _ => .none

/-- A CPU transaction was claimed by `d`, or by nobody; nothing else differs. -/
def State.cpuClaimed (s : State) (d : Option DeviceId) : State := { s with claimed := Claims.cpu s.claimed d }

/-- The device that answers a CPU address outside 0x2000-0x3FFF (20 R61). -/
def State.cpuResponder (s : State) (a : Addr) : Option DeviceId :=
  if s.cart.loaded ∧ 0x8000 ≤ a.toNat then some .cartCpu
  else if inRange s.config .workRam a then some .workRam
  else none

/-- A CPU transaction that can return the write toggle to false: a Status read, or a Scroll or Address write, at any mirror
(42 R194, R195). -/
def CpuTxn.touchesToggle : CpuTxn → Prop
  | .read a => 0x2000 ≤ a.toNat ∧ a.toNat ≤ 0x3FFF ∧ a.toNat % 8 = 2
  | .write a _ => 0x2000 ≤ a.toNat ∧ a.toNat ≤ 0x3FFF ∧ (a.toNat % 8 = 5 ∨ a.toNat % 8 = 6)

/-! ## Positions of the dot counter -/

/-- The fetch window (43 R224). -/
abbrev Ppu.inWindow (p : Ppu) : Prop :=
  (-1 ≤ p.scanline ∧ p.scanline ≤ 239) ∧ ((2 ≤ p.cycle ∧ p.cycle ≤ 257) ∨ (321 ≤ p.cycle ∧ p.cycle ≤ 337))

/-- A visible dot (43 R254, R256). -/
abbrev Ppu.onScreen (p : Ppu) : Prop := (0 ≤ p.scanline ∧ p.scanline ≤ 239) ∧ (1 ≤ p.cycle ∧ p.cycle ≤ 256)

/-- Pre-render cycle 1 (43 R223). -/
abbrev Ppu.preRenderDot (p : Ppu) : Prop := p.scanline = -1 ∧ p.cycle = 1

/-- The dot at which vblank starts (43 R255). -/
abbrev Ppu.vblankDot (p : Ppu) : Prop := p.scanline = 241 ∧ p.cycle = 1

/-- The dot of a sprite evaluation (43 R246, R239). -/
abbrev Ppu.evaluationDot (p : Ppu) : Prop := (0 ≤ p.scanline ∧ p.scanline ≤ 239) ∧ p.cycle = 257

/-- A dot that some trigger of 43 R223-R255 names. -/
abbrev Ppu.triggered (p : Ppu) : Prop :=
  p.inWindow ∨ (p.scanline = -1 ∧ p.cycle = 1) ∨ (p.scanline = -1 ∧ 280 ≤ p.cycle ∧ p.cycle ≤ 304) ∨
    ((0 ≤ p.scanline ∧ p.scanline ≤ 239) ∧ p.cycle = 340) ∨ (p.scanline = 241 ∧ p.cycle = 1)

/-- Background or sprites are shown (43 R260). -/
abbrev Ppu.rendering (p : Ppu) : Prop := p.mask.getLsbD 3 = true ∨ p.mask.getLsbD 4 = true

/-! ## The invariant -/

/-- Every CHR offset of the 8 KiB window is inside the loaded storage (41 R171). -/
def Cart.chrInBounds (c : Cart) : Prop :=
  c.loaded = true → ∀ off, off < 8192 → (ChrStore.byte? c.chr off).isSome = true

/-- A store in canonical form, all its cells below `n`. -/
def Memory.fits {w : Nat} (n : Nat) (m : Memory w) : Prop := Memory.wf m = true ∧ Memory.below n m = true

/-- What the load protocol establishes (41 R166, R171) and the cartridge as constructed (10 R40). -/
structure Cart.Inv (c : Cart) : Prop where
  callbacks : c.callbacks = [.onCartridgeLoaded]
  unloaded : c.loaded = false → c.header = none ∧ c.prg = [] ∧ c.chr = .rom []
  header : c.loaded = true → c.header.isSome = true
  prgLength : c.loaded = true → c.prg.length = 16384 * Cart.prgBanks c
  romLength : ∀ bytes, c.loaded = true → c.chr = .rom bytes →
    Cart.chrBanks c ≠ 0 ∧ bytes.length = 8192 * Cart.chrBanks c
  ramCells : ∀ cells, c.chr = .ram cells → Cart.chrBanks c = 0 ∧ Memory.fits 8192 cells

/-- The ranges of 10 R26, R29, R30, R34, R35 and R37. -/
structure Ppu.Inv (p : Ppu) : Prop where
  scanlineLow : -1 ≤ p.scanline
  scanlineHigh : p.scanline ≤ 260
  cycle : p.cycle ≤ 340
  slots : p.sprites.length = 8
  spriteCount : p.spriteCount ≤ 8
  stale : p.stale = 0
  oam : Memory.fits 256 p.oam
  pal : Memory.fits 32 p.pal
  fb : Memory.fits (240 * 256) p.fb

/-- At most one device of each chain has its flag set (40 R135). -/
structure Claims.Inv (c : Claims) : Prop where
  cartCpuPpu : (c.cartCpu && c.ppu) = false
  cartCpuWorkRam : (c.cartCpu && c.workRam) = false
  ppuWorkRam : (c.ppu && c.workRam) = false
  cartPpuVideoRam : (c.cartPpu && c.videoRam) = false

/-- The invariant of the machine. -/
structure State.Inv (s : State) : Prop where
  claimed : Claims.Inv s.claimed
  cart : Cart.Inv s.cart
  ppu : Ppu.Inv s.ppu
  wram : Memory.wf s.wram = true
  vram : Memory.wf s.vram = true
  wramSize : s.config.wf = true → Memory.below s.config.workRamSize s.wram = true
  vramSize : s.config.wf = true → Memory.below s.config.videoRamSize s.vram = true

end Sys2Proof.Machine
end

