-- ==== Sys2Proof/Certificates/Slice0/Obligations.lean ====
section
/-!
DEFINITION. The statements for the provers, in the order of spec/'s files. A result statement is an equation
`exec i s = .next t`, so it says at once that the instruction completes, what it writes, and that nothing else changes.
-/

open Sys2Proof Sys2Proof.Machine

/-! ## Encoding (spec 30_encoding.md) -/

/-- 30 R90, R91, R93: decoding the word of a well-formed instruction gives the instruction back, every operand at every value
its row admits. -/
def Obligations.DecodeEncodeRoundTrip : Prop :=
  ∀ i : Instr, i.wf = true → decode (encode i) = .ok i

/-- 30 R90, R91, R93: an accepted word is the encoding of the well-formed instruction it decodes to, and lies in that
instruction's row of the opcode table. -/
def Obligations.EncodeDecodeRoundTrip : Prop :=
  ∀ (w : Word) (i : Instr), decode w = .ok i → i.wf = true ∧ encode i = w ∧ w &&& i.rowMask = i.rowMatch

/-- 30 R92: which words have a non-zero reserved field, that the step refuses exactly these and changes nothing else in the
block, and that every other word is a row of the table. The environment's side is assumption 1. -/
def Obligations.ReservedFieldsRefused : Prop :=
  ∀ (s : State) (r : Request) (rest : List Request), s.env.requests = r :: rest → s.fault = none →
    let op := r.word.toNat / 2 ^ 24
    let data := r.word.toNat / 2 ^ 16 % 256
    let addr := r.word.toNat % 2 ^ 16
    let reserved :=
      (op ∈ [0, 2, 4, 5, 6, 7, 8] ∧ data ≠ 0) ∨ (op ∈ [4, 5, 6, 7, 8, 9] ∧ addr ≠ 0) ∨ (op = 9 ∧ 2 ≤ data) ∨
        (op ∈ [2, 3] ∧ 0x4000 ≤ addr)
    (reserved → step s = .next
      { s with refused := some .reservedField, env := { s.env with requests := rest, operand := r.image } }) ∧
    (¬ reserved → ∃ i, decode r.word = .ok i ∧ i.wf = true ∧ r.word &&& i.rowMask = i.rowMatch)

/-- 30 R90-R93: words written out from the encoding, at least one for each family. -/
def Obligations.SpecWordsDecode : Prop :=
  decode 0x0001801 = .ok (.cpuRdWram 0x1801) ∧ decode 0x0002002 = .ok (.cpuRdReg2 0x2002) ∧
  decode 0x0003FFF = .ok (.cpuRdReg7 0x3FFF) ∧ decode 0x0005000 = .ok (.cpuRdOpen 0x5000) ∧
  decode 0x000FFFC = .ok (.cpuRdPrg 0xFFFC) ∧ decode 0x15A0801 = .ok (.cpuWrWram 0x0801 0x5A) ∧
  decode 0x1932000 = .ok (.cpuWrReg0 0x2000 0x93) ∧ decode 0x13F2006 = .ok (.cpuWrReg6 0x2006 0x3F) ∧
  decode 0x1014016 = .ok (.cpuWrOpen 0x4016 0x01) ∧ decode 0x1018000 = .ok (.cpuWrPrg 0x8000 0x01) ∧
  decode 0x2000010 = .ok (.ppuRdChr 0x0010) ∧ decode 0x2002005 = .ok (.ppuRdNt 0x2005) ∧
  decode 0x2003EFF = .ok (.ppuRdNt 0x3EFF) ∧ decode 0x2003F00 = .ok (.ppuRdPal 0x3F00) ∧
  decode 0x3AA0000 = .ok (.ppuWrChr 0x0000 0xAA) ∧ decode 0x3112805 = .ok (.ppuWrNt 0x2805 0x11) ∧
  decode 0x3303F01 = .ok (.ppuWrPal 0x3F01 0x30) ∧ decode 0x4000000 = .ok .ppuClock ∧ decode 0x5000000 = .ok .sysStep ∧
  decode 0x6000000 = .ok .reset ∧ decode 0x7000000 = .ok .powerOn ∧ decode 0x8000000 = .ok .loadCart ∧
  decode 0x9010000 = .ok (.setRun true) ∧ decode 0x9000000 = .ok (.setRun false) ∧
  decode 0xB12ABCD = .ok (.reservedOpAB 0xB 0x12 0xABCD) ∧ decode 0xF000000 = .ok (.reservedOpCF 0xF 0x00 0x0000) ∧
  decode 0x2007F00 = .error .reservedField ∧ decode 0x9020000 = .error .reservedField

/-- 20 R67, 30 R91, 60 R291: a step takes the next word off the list, and executes the instruction it decodes to with the
word's image as the operand (assumptions 1 and 2); with no word waiting nothing happens (assumption 1, the model's choice); a
faulted state is terminal: the word is taken and ignored. -/
def Obligations.StepRunsDecodedInstruction : Prop :=
  ∀ s : State,
    (∀ (r : Request) (rest : List Request) (i : Instr),
      s.fault = none → s.env.requests = r :: rest → decode r.word = .ok i →
        step s = exec i { s with env := { s.env with requests := rest, operand := r.image } }) ∧
    (s.env.requests = [] → step s = .next s) ∧
    (∀ (r : Request) (rest : List Request), s.fault.isSome = true → s.env.requests = r :: rest →
      step s = .next { s with env := { s.env with requests := rest, operand := r.image } })

/-- 30 R91, 60 R293: a reserved operation sets the refusal mark and changes nothing else. -/
def Obligations.ReservedOperationsRefused : Prop :=
  ∀ (s : State) (op : BitVec 4) (data : Byte) (addr : Addr),
    exec (.reservedOpAB op data addr) s = .next { s with refused := some .reservedOp } ∧
    exec (.reservedOpCF op data addr) s = .next { s with refused := some .reservedOp }

/-! ## The CPU bus (spec 40_bus_fabric.md, 41_cartridge_mapper.md) -/

/-- 40 R133, R139, 41 R151: a CPU read outside the register window that no cartridge answers gives the WorkRam byte when the
address is in `WorkRamRange`, else open bus, 0; the claim flags of the CPU chain are those of the responder. -/
def Obligations.WorkRamAndOpenBusRead : Prop :=
  ∀ (s : State) (a : Addr),
    let hit : Bool := decide (s.config.workRamLo.toNat ≤ a.toNat ∧ a.toNat ≤ s.config.workRamHi.toNat)
    let byte := if hit then storeByte .wram s.wram (a &&& s.config.workRamMask).toNat else 0
    let t : State :=
      { s with
        claimed := { s.claimed with cartCpu := false, ppu := false, workRam := hit }
        env := { s.env with replies := byte :: s.env.replies } }
    (a.toNat < 0x2000 → exec (.cpuRdWram a) s = .next t) ∧
    (0x4000 ≤ a.toNat → a.toNat < 0x8000 → exec (.cpuRdOpen a) s = .next t) ∧
    (0x8000 ≤ a.toNat → s.cart.loaded = false → exec (.cpuRdPrg a) s = .next t)

/-- 40 R134, R139, 41 R151: a CPU write outside the register window that no cartridge claims stores one WorkRam byte when the
address is in `WorkRamRange`, else it is dropped; every other WorkRam byte reads as before. -/
def Obligations.WorkRamAndOpenBusWrite : Prop :=
  ∀ (s : State) (a : Addr) (d : Byte),
    let hit : Bool := decide (s.config.workRamLo.toNat ≤ a.toNat ∧ a.toNat ≤ s.config.workRamHi.toNat)
    let key := (a &&& s.config.workRamMask).toNat
    let t : State :=
      { s with
        claimed := { s.claimed with cartCpu := false, ppu := false, workRam := hit }
        wram := if hit then Memory.put s.wram key d else s.wram }
    (a.toNat < 0x2000 → exec (.cpuWrWram a d) s = .next t) ∧
    (0x4000 ≤ a.toNat → a.toNat < 0x8000 → exec (.cpuWrOpen a d) s = .next t) ∧
    (0x8000 ≤ a.toNat → s.cart.loaded = false → exec (.cpuWrPrg a d) s = .next t) ∧
    (∀ k, storeByte .wram t.wram k = if hit = true ∧ k = key then d else storeByte .wram s.wram k)

/-- 20 R61 with the default parameters: WorkRam is 2 KiB mirrored through 0x1FFF, and 0x4000-0x7FFF is open bus: reads return
0, writes are dropped. -/
def Obligations.DefaultCpuMap : Prop :=
  ∀ (s : State) (a : Addr) (d : Byte), s.config = Config.default →
    (a.toNat < 0x2000 →
      (∃ t, exec (.cpuRdWram a) s = .next t ∧
        t.env.replies = storeByte .wram s.wram (a.toNat % 2048) :: s.env.replies) ∧
      (∃ t, exec (.cpuWrWram a d) s = .next t ∧
        ∀ k, storeByte .wram t.wram k = if k = a.toNat % 2048 then d else storeByte .wram s.wram k)) ∧
    (0x4000 ≤ a.toNat → a.toNat < 0x8000 →
      (∃ t, exec (.cpuRdOpen a) s = .next t ∧ t.env.replies = 0 :: s.env.replies ∧
        t.claimed.cartCpu = false ∧ t.claimed.ppu = false ∧ t.claimed.workRam = false) ∧
      (∃ t, exec (.cpuWrOpen a d) s = .next t ∧ t = { s with claimed := t.claimed }))

/-- 41 R152, R154, R158: a CPU read of 0x8000-0xFFFF with a cartridge loaded, either mapper: the PRG byte at the masked
offset, or the bounds fault with the address and the offset and no byte returned; that the fault needs `prgBanks = 0` is
OffsetsInBounds. Elsewhere, and with no cartridge, the cartridge declines. -/
def Obligations.PrgRead : Prop :=
  ∀ (s : State) (a : Addr),
    (∀ h : Header, 0x8000 ≤ a.toNat → s.cart.loaded = true → s.cart.header = some h →
      let off := if 1 < h.prgBanks.toNat then a.toNat % 0x8000 else a.toNat % 0x4000
      let claimed : Claims := { s.claimed with cartCpu := true, ppu := false, workRam := false }
      mapCpu s.cart a = (off, true) ∧
      (∀ b, s.cart.prg[off]? = some b →
        exec (.cpuRdPrg a) s =
          .next { s with claimed := claimed, env := { s.env with replies := b :: s.env.replies } }) ∧
      (s.cart.prg.length ≤ off →
        exec (.cpuRdPrg a) s =
          .next { s with claimed := claimed, fault := some (.mapperOffsetOutOfBounds a off) })) ∧
    (a.toNat < 0x8000 → mapCpu s.cart a = (0, false)) ∧
    (a.toNat < 0x8000 ∨ s.cart.loaded = false →
      cartCpuRead a s = .ok (0, { s with claimed := { s.claimed with cartCpu := false } }))

/-- 41 R159: a CPU write of 0x8000-0xFFFF with a cartridge loaded is claimed and nothing is stored. -/
def Obligations.PrgWriteDiscarded : Prop :=
  ∀ (s : State) (a : Addr) (d : Byte), 0x8000 ≤ a.toNat → s.cart.loaded = true →
    exec (.cpuWrPrg a d) s =
      .next { s with claimed := { s.claimed with cartCpu := true, ppu := false, workRam := false } }

/-! ## The PPU registers (spec 42_ppu_registers.md) -/

/-- 42 R189: a read of register 0, 1, 3, 5 or 6 returns `WriteOnlyReadValue` and writes nothing but the claim. -/
def Obligations.WriteOnlyRegisterRead : Prop :=
  ∀ (s : State) (a : Addr), 0x2000 ≤ a.toNat → a.toNat ≤ 0x3FFF →
    let t : State :=
      { s with
        claimed := { s.claimed with cartCpu := false, ppu := true, workRam := false }
        env := { s.env with replies := s.config.writeOnlyReadValue :: s.env.replies } }
    (a.toNat % 8 = 0 → exec (.cpuRdReg0 a) s = .next t) ∧ (a.toNat % 8 = 1 → exec (.cpuRdReg1 a) s = .next t) ∧
    (a.toNat % 8 = 3 → exec (.cpuRdReg3 a) s = .next t) ∧ (a.toNat % 8 = 5 → exec (.cpuRdReg5 a) s = .next t) ∧
    (a.toNat % 8 = 6 → exec (.cpuRdReg6 a) s = .next t)

/-- 42 R183: a Status read returns the three flags over a draw, clears `vblank` and `w`, and changes no other block state.
The draw is a free value (assumption 7). -/
def Obligations.StatusRead : Prop :=
  ∀ (s : State) (a : Addr), 0x2000 ≤ a.toNat → a.toNat ≤ 0x3FFF → a.toNat % 8 = 2 →
    exec (.cpuRdReg2 a) s =
      .next
        { s with
          claimed := { s.claimed with cartCpu := false, ppu := true, workRam := false }
          ppu := { s.ppu with status := s.ppu.status &&& 0x7F, w := false }
          env :=
            { s.env with
              replies :=
                ((s.ppu.status &&& 0xE0) ||| (Config.statusLowBits s.env.draws).setWidth 8) :: s.env.replies
              draws := s.env.draws + 1 } }

/-- 42 R187: an OAM data read returns the byte at the pointer, which does not advance. -/
def Obligations.OamDataRead : Prop :=
  ∀ (s : State) (a : Addr), 0x2000 ≤ a.toNat → a.toNat ≤ 0x3FFF → a.toNat % 8 = 4 →
    exec (.cpuRdReg4 a) s =
      .next
        { s with
          claimed := { s.claimed with cartCpu := false, ppu := true, workRam := false }
          env := { s.env with replies := storeByte .oam s.ppu.oam s.ppu.oamAddr.toNat :: s.env.replies } }

/-- 42 R191, R193: a Data read returns the byte at `v`, or the buffer when `DataReadBuffered`, and advances `v` by 1 or 32
modulo 2^15. -/
def Obligations.DataRead : Prop :=
  ∀ (s : State) (a : Addr), 0x2000 ≤ a.toNat → a.toNat ≤ 0x3FFF → a.toNat % 8 = 7 → Cart.chrInBounds s.cart →
    let va : Addr := BitVec.ofNat 16 (s.ppu.v.toNat % 0x4000)
    let byte := s.ppuPeek va
    let ppu : Ppu :=
      { s.ppu with v := BitVec.ofNat 15 (s.ppu.v.toNat + if s.ppu.ctrl.getLsbD 2 then 32 else 1) }
    let claimed := ({ s with claimed := { s.claimed with cartCpu := false, ppu := true, workRam := false } } : State).claimsAfterPpu va
    (s.config.dataReadBuffered = false →
      exec (.cpuRdReg7 a) s =
        .next { s with claimed := claimed, ppu := ppu, env := { s.env with replies := byte :: s.env.replies } }) ∧
    (s.config.dataReadBuffered = true →
      exec (.cpuRdReg7 a) s =
        .next
          { s with
            claimed := claimed
            ppu := { ppu with dataBuf := byte }
            env :=
              { s.env with
                replies := (if 0x3F00 ≤ va.toNat then byte else s.ppu.dataBuf) :: s.env.replies } })

/-- 42 R181: a Control write stores the byte and copies its bits 1:0 into bits 11:10 of `t`; no NMI is requested. Which dot
alone requests one is VblankStart. -/
def Obligations.ControlWrite : Prop :=
  ∀ (s : State) (a : Addr) (d : Byte), 0x2000 ≤ a.toNat → a.toNat ≤ 0x3FFF → a.toNat % 8 = 0 →
    exec (.cpuWrReg0 a d) s =
      .next
        { s with
          claimed := { s.claimed with cartCpu := false, ppu := true, workRam := false }
          ppu := { s.ppu with ctrl := d, t := (s.ppu.t &&& 0x73FF) ||| ((d.setWidth 15 &&& 0x3) <<< 10) } }

/-- 42 R182, R184, R185: writes to Mask, Status and OAM address. -/
def Obligations.MaskStatusOamAddrWrite : Prop :=
  ∀ (s : State) (a : Addr) (d : Byte), 0x2000 ≤ a.toNat → a.toNat ≤ 0x3FFF →
    let u : State := { s with claimed := { s.claimed with cartCpu := false, ppu := true, workRam := false } }
    (a.toNat % 8 = 1 → exec (.cpuWrReg1 a d) s = .next { u with ppu := { s.ppu with mask := d } }) ∧
    (a.toNat % 8 = 2 → exec (.cpuWrReg2 a d) s = .next u) ∧
    (a.toNat % 8 = 3 → exec (.cpuWrReg3 a d) s = .next { u with ppu := { s.ppu with oamAddr := d } })

/-- 42 R186: an OAM data write stores at the pointer, which advances modulo 256; every other OAM byte reads as before. -/
def Obligations.OamDataWrite : Prop :=
  ∀ (s : State) (a : Addr) (d : Byte), 0x2000 ≤ a.toNat → a.toNat ≤ 0x3FFF → a.toNat % 8 = 4 →
    let t : State :=
      { s with
        claimed := { s.claimed with cartCpu := false, ppu := true, workRam := false }
        ppu :=
          { s.ppu with
            oam := Memory.put s.ppu.oam s.ppu.oamAddr.toNat d
            oamAddr := BitVec.ofNat 8 ((s.ppu.oamAddr.toNat + 1) % 256) } }
    exec (.cpuWrReg4 a d) s = .next t ∧
    ∀ k, storeByte .oam t.ppu.oam k = if k = s.ppu.oamAddr.toNat then d else storeByte .oam s.ppu.oam k

/-- 42 R188: the two halves of a Scroll write. -/
def Obligations.ScrollWrite : Prop :=
  ∀ (s : State) (a : Addr) (d : Byte), 0x2000 ≤ a.toNat → a.toNat ≤ 0x3FFF → a.toNat % 8 = 5 →
    let u : State := { s with claimed := { s.claimed with cartCpu := false, ppu := true, workRam := false } }
    (s.ppu.w = false →
      exec (.cpuWrReg5 a d) s =
        .next
          { u with
            ppu :=
              { s.ppu with
                fineX := BitVec.ofNat 3 (d.toNat % 8)
                t := (s.ppu.t &&& 0x7FE0) ||| BitVec.ofNat 15 (d.toNat / 8)
                w := true } }) ∧
    (s.ppu.w = true →
      exec (.cpuWrReg5 a d) s =
        .next
          { u with
            ppu :=
              { s.ppu with
                t := (s.ppu.t &&& 0x0C1F) ||| BitVec.ofNat 15 (d.toNat % 8 * 2 ^ 12 + d.toNat / 8 * 2 ^ 5)
                w := false } })

/-- 42 R190: the two halves of an Address write, high byte first; the second copies `t` into `v`. -/
def Obligations.AddressWrite : Prop :=
  ∀ (s : State) (a : Addr) (d : Byte), 0x2000 ≤ a.toNat → a.toNat ≤ 0x3FFF → a.toNat % 8 = 6 →
    let u : State := { s with claimed := { s.claimed with cartCpu := false, ppu := true, workRam := false } }
    let low : Loopy := BitVec.ofNat 15 (s.ppu.t.toNat / 256 * 256 + d.toNat)
    (s.ppu.w = false →
      exec (.cpuWrReg6 a d) s =
        .next
          { u with
            ppu := { s.ppu with t := BitVec.ofNat 15 (d.toNat % 64 * 256 + s.ppu.t.toNat % 256), w := true } }) ∧
    (s.ppu.w = true →
      exec (.cpuWrReg6 a d) s = .next { u with ppu := { s.ppu with t := low, v := low, w := false } })

/-- 42 R192, R193: a Data write is one PPU-space write at `v`, then `v` advances by 1 or 32 modulo 2^15; every PPU-space byte
in another cell reads as before. -/
def Obligations.DataWrite : Prop :=
  ∀ (s : State) (a : Addr) (d : Byte), 0x2000 ≤ a.toNat → a.toNat ≤ 0x3FFF → a.toNat % 8 = 7 →
    let va : Addr := BitVec.ofNat 16 (s.ppu.v.toNat % 0x4000)
    let u : State :=
      ({ s with claimed := { s.claimed with cartCpu := false, ppu := true, workRam := false } } : State).ppuStore va d
    let t : State :=
      { u with
        ppu := { u.ppu with v := BitVec.ofNat 15 (s.ppu.v.toNat + if s.ppu.ctrl.getLsbD 2 then 32 else 1) } }
    exec (.cpuWrReg7 a d) s = .next t ∧
    ∀ x : Addr, s.ppuCell x ≠ s.ppuCell va → t.ppuPeek x = s.ppuPeek x

/-- 42 R194: the registers are mirrored every 8 bytes through 0x3FFF. -/
def Obligations.RegisterMirroring : Prop :=
  ∀ (s : State) (a : Addr) (d : Byte), 0x2008 ≤ a.toNat → a.toNat ≤ 0x3FFF →
    let base : Addr := BitVec.ofNat 16 (0x2000 + a.toNat % 8)
    (∀ i j, decode (assembleWord 0x0 0 a) = .ok i → decode (assembleWord 0x0 0 base) = .ok j → exec i s = exec j s) ∧
    (∀ i j, decode (assembleWord 0x1 d a) = .ok i → decode (assembleWord 0x1 d base) = .ok j → exec i s = exec j s)

/-- 42 R195: only a Status read, a second half of a Scroll or Address write, or a PPU reset returns `w` to false; a SYS_STEP
does so only when the CPU clock's batch (assumption 4) holds such an access. -/
def Obligations.ToggleClearedOnlyBy : Prop :=
  ∀ (i : Instr) (s t : State), i.wf = true → exec i s = .next t → s.ppu.w = true → t.ppu.w = false →
    (∃ a, i = .cpuRdReg2 a) ∨ (∃ a d, i = .cpuWrReg5 a d) ∨ (∃ a d, i = .cpuWrReg6 a d) ∨ i = .reset ∨ i = .powerOn ∨
      i = .loadCart ∨
      (i = .sysStep ∧ s.running = true ∧ ∃ txn ∈ s.env.cpuBatches.headD [], txn.touchesToggle)

/-! ## PPU space (spec 42 R196-R199, 20 R62-R64, 40 R140, 41 R161, R162) -/

/-- 42 R199, 20 R63: a palette read returns the masked entry and touches no claim flag; composition and the Data register use
the same value. -/
def Obligations.PaletteRead : Prop :=
  ∀ (s : State) (a : Addr), 0x3F00 ≤ a.toNat → a.toNat ≤ 0x3FFF →
    let i := if 16 ≤ a.toNat % 32 ∧ a.toNat % 4 = 0 then a.toNat % 32 - 16 else a.toNat % 32
    let byte := storeByte .pal s.ppu.pal i &&& if s.ppu.mask.getLsbD 0 then 0x30 else 0x3F
    exec (.ppuRdPal a) s = .next { s with env := { s.env with replies := byte :: s.env.replies } } ∧
    s.ppu.palRead a = byte ∧ s.ppuPeek a = byte

/-- 42 R198, 20 R63: a palette write stores all eight bits and touches no claim flag; every other entry reads as before. -/
def Obligations.PaletteWrite : Prop :=
  ∀ (s : State) (a : Addr) (d : Byte), 0x3F00 ≤ a.toNat → a.toNat ≤ 0x3FFF →
    let i := if 16 ≤ a.toNat % 32 ∧ a.toNat % 4 = 0 then a.toNat % 32 - 16 else a.toNat % 32
    let t : State := { s with ppu := { s.ppu with pal := Memory.put s.ppu.pal i d } }
    exec (.ppuWrPal a d) s = .next t ∧
    ∀ k, storeByte .pal t.ppu.pal k = if k = i then d else storeByte .pal s.ppu.pal k

/-- 40 R140: a nametable read is the VideoRam byte at `NametableMap(a)` when the address is in `VideoRamRange`, else 0. -/
def Obligations.NametableRead : Prop :=
  ∀ (s : State) (a : Addr), 0x2000 ≤ a.toNat → a.toNat < 0x3F00 →
    let hit : Bool := decide (s.config.videoRamLo.toNat ≤ a.toNat ∧ a.toNat ≤ s.config.videoRamHi.toNat)
    let byte := if hit then storeByte .vram s.vram (nametableOffset s.config s.cart a) else 0
    exec (.ppuRdNt a) s =
      .next
        { s with
          claimed := { s.claimed with cartPpu := false, videoRam := hit }
          env := { s.env with replies := byte :: s.env.replies } }

/-- 40 R140: a nametable write stores one VideoRam byte when the address is in `VideoRamRange`, else it is dropped; every
other byte reads as before. -/
def Obligations.NametableWrite : Prop :=
  ∀ (s : State) (a : Addr) (d : Byte), 0x2000 ≤ a.toNat → a.toNat < 0x3F00 →
    let hit : Bool := decide (s.config.videoRamLo.toNat ≤ a.toNat ∧ a.toNat ≤ s.config.videoRamHi.toNat)
    let key := nametableOffset s.config s.cart a
    let t : State :=
      { s with
        claimed := { s.claimed with cartPpu := false, videoRam := hit }
        vram := if hit then Memory.put s.vram key d else s.vram }
    exec (.ppuWrNt a d) s = .next t ∧
    ∀ k, storeByte .vram t.vram k = if hit = true ∧ k = key then d else storeByte .vram s.vram k

/-- 20 R64: the default nametable map, vertical with a loaded cartridge whose mirroring bit is 1, else horizontal. R64 marks
the map, its polarity and the fallback "from general knowledge, not in source" (assumption 14). -/
def Obligations.DefaultNametableMap : Prop :=
  ∀ (cfg : Config) (c : Cart) (a : Addr), cfg.nametableMap = .byHeader →
    ((c.loaded = true ∧ ∃ h, c.header = some h ∧ h.mirroring = true) → nametableOffset cfg c a = a.toNat % 0x800) ∧
    (¬ (c.loaded = true ∧ ∃ h, c.header = some h ∧ h.mirroring = true) →
      nametableOffset cfg c a = a.toNat / 0x800 % 2 * 0x400 + a.toNat % 0x400)

/-- 41 R151, R153, R155, R161: a PPU read of 0x0000-0x1FFF, either mapper: the CHR byte at the address itself; the bounds
fault outside the storage; without a cartridge what VideoRam answers, by default open bus. Outside the window the cartridge
declines. -/
def Obligations.ChrRead : Prop :=
  ∀ (s : State) (a : Addr),
   mapPpu s.cart a = (if a.toNat < 0x2000 then (a.toNat, true) else (0, false)) ∧
   (0x2000 ≤ a.toNat ∨ s.cart.loaded = false →
     cartPpuRead a s = .ok (0, { s with claimed := { s.claimed with cartPpu := false } })) ∧
   (a.toNat < 0x2000 →
    let claimed : Claims := { s.claimed with cartPpu := true, videoRam := false }
    let hit : Bool := decide (s.config.videoRamLo.toNat ≤ a.toNat ∧ a.toNat ≤ s.config.videoRamHi.toNat)
    let byte := if hit then storeByte .vram s.vram (nametableOffset s.config s.cart a) else 0
    (s.cart.loaded = true →
      (∀ bytes b, s.cart.chr = .rom bytes → bytes[a.toNat]? = some b →
        exec (.ppuRdChr a) s =
          .next { s with claimed := claimed, env := { s.env with replies := b :: s.env.replies } }) ∧
      (∀ cells, s.cart.chr = .ram cells →
        exec (.ppuRdChr a) s =
          .next
            { s with
              claimed := claimed
              env := { s.env with replies := storeByte .chrRam cells a.toNat :: s.env.replies } }) ∧
      (∀ bytes, s.cart.chr = .rom bytes → bytes.length ≤ a.toNat →
        exec (.ppuRdChr a) s =
          .next { s with claimed := claimed, fault := some (.mapperOffsetOutOfBounds a a.toNat) })) ∧
    (s.cart.loaded = false →
      exec (.ppuRdChr a) s =
        .next
          { s with
            claimed := { s.claimed with cartPpu := false, videoRam := hit }
            env := { s.env with replies := byte :: s.env.replies } }))

/-- 41 R151, R162: a PPU write of 0x0000-0x1FFF: CHR-RAM stores the byte, CHR-ROM claims and discards it; without a cartridge
it goes where VideoRam puts it, by default nowhere. Outside the window the cartridge declines. -/
def Obligations.ChrWrite : Prop :=
  ∀ (s : State) (a : Addr) (d : Byte),
   (0x2000 ≤ a.toNat ∨ s.cart.loaded = false →
     cartPpuWrite a d s = { s with claimed := { s.claimed with cartPpu := false } }) ∧
   (a.toNat < 0x2000 →
    let claimed : Claims := { s.claimed with cartPpu := true, videoRam := false }
    let hit : Bool := decide (s.config.videoRamLo.toNat ≤ a.toNat ∧ a.toNat ≤ s.config.videoRamHi.toNat)
    (s.cart.loaded = true →
      (∀ cells, s.cart.chr = .ram cells →
        let after := Memory.put cells a.toNat d
        exec (.ppuWrChr a d) s = .next { s with claimed := claimed, cart := { s.cart with chr := .ram after } } ∧
        ∀ k, storeByte .chrRam after k = if k = a.toNat then d else storeByte .chrRam cells k) ∧
      (∀ bytes, s.cart.chr = .rom bytes → exec (.ppuWrChr a d) s = .next { s with claimed := claimed })) ∧
    (s.cart.loaded = false →
      exec (.ppuWrChr a d) s =
        .next
          { s with
            claimed := { s.claimed with cartPpu := false, videoRam := hit }
            vram := if hit then Memory.put s.vram (nametableOffset s.config s.cart a) d else s.vram }))

/-! ## The cartridge (spec 41_cartridge_mapper.md) -/

/-- 41 R156, R165, R166, R167, R169, 44 R271, R277: a load of a whole image: the header fields, the slices, the mapper, and
the callback, which resets the CPU collaborator and the PPU once; a shorter image is the Truncated fault. That the
collaborator's reset makes no transaction and leaves only an entry in the call log is the model's (assumption 4). -/
def Obligations.LoadCompletes : Prop :=
  ∀ (s : State) (b : List Byte), s.cart.loaded = false → s.cart.callbacks = [.onCartridgeLoaded] →
    s.env.operand = .bytes b → 16 ≤ b.length → b.take 4 = [0x4E, 0x45, 0x53, 0x1A] →
    let at' : Nat → Byte := fun k => b.getD k 0
    let nes2 : Bool := (at' 7).toNat / 4 % 4 == 2
    let start := 16 + if (at' 6).getLsbD 2 then 512 else 0
    let prgLen := 16384 * (at' 4).toNat
    let chrLen := 8192 * (at' 5).toNat
    let mapperId : Byte := BitVec.ofNat 8 ((at' 7).toNat / 16 * 16 + (at' 6).toNat / 16)
    (nes2 = true → s.config.nes2Policy = .parseAsINES) →
     (b.length < start + prgLen + chrLen →
      exec .loadCart s = .next { s with fault := some (.loadTruncated b.length (start + prgLen + chrLen)) }) ∧
     (start + prgLen + chrLen ≤ b.length →
      exec .loadCart s =
        .next
          { s with
            cart :=
              { s.cart with
                loaded := true
                header :=
                  some
                    { format := if nes2 then .nes2 else .iNES, prgBanks := at' 4, chrBanks := at' 5
                      mirroring := (at' 6).getLsbD 0, battery := (at' 6).getLsbD 1, trainer := (at' 6).getLsbD 2
                      fourScreen := (at' 6).getLsbD 3, mapperId := mapperId, vsUnisystem := (at' 7).getLsbD 0
                      playChoice10 := (at' 7).getLsbD 1, prgRamSize := at' 8, tvSystem := at' 9, flags10 := at' 10 }
                prg := (b.drop start).take prgLen
                chr := if at' 5 = 0 then .ram [] else .rom ((b.drop (start + prgLen)).take chrLen)
                mapper := if mapperId = 3 then .cnrom else .nrom }
            ppu := { Ppu.powerUp with oam := s.ppu.oam, pal := s.ppu.pal, fb := s.ppu.fb }
            env := { s.env with cpuCalls := .reset :: s.env.cpuCalls } })

/-- 41 R163, R164, R167, R168, R170: a load that faults or is refused sets its mark and changes nothing else; any other load
records the format. The model's inferences: a second load is refused before its image is looked at (assumption 11), and an
image under 16 bytes records the needed length 16, the tests coming in the order of the clauses (assumption 12). -/
def Obligations.LoadStops : Prop :=
  ∀ s : State,
    (s.cart.loaded = true → exec .loadCart s = .next { s with refused := some .secondLoad }) ∧
    (s.cart.loaded = false → s.env.operand = .unreadable →
      exec .loadCart s = .next { s with fault := some .loadUnreadable }) ∧
    (∀ b : List Byte, s.cart.loaded = false → s.env.operand = .bytes b →
      let at' : Nat → Byte := fun k => b.getD k 0
      let signature : Prop := b.take 4 = [0x4E, 0x45, 0x53, 0x1A]
      let nes2Refused : Prop := (at' 7).toNat / 4 % 4 = 2 ∧ s.config.nes2Policy = .refuse
      let needed :=
        (16 + if (at' 6).getLsbD 2 then 512 else 0) + 16384 * (at' 4).toNat + 8192 * (at' 5).toNat
      (b.length < 16 → exec .loadCart s = .next { s with fault := some (.loadTruncated b.length 16) }) ∧
      (16 ≤ b.length → ¬ signature →
        exec .loadCart s =
          .next { s with fault := some (.loadBadSignature (at' 0) (at' 1) (at' 2) (at' 3)) }) ∧
      (16 ≤ b.length → signature → nes2Refused →
        exec .loadCart s = .next { s with refused := some .nes2NotDecoded }) ∧
      (16 ≤ b.length → signature → ¬ nes2Refused → b.length < needed →
        exec .loadCart s = .next { s with fault := some (.loadTruncated b.length needed) }) ∧
      (16 ≤ b.length → signature → ¬ nes2Refused → needed ≤ b.length →
        ∃ t h, exec .loadCart s = .next t ∧ t.cart.loaded = true ∧ t.cart.header = some h ∧
          h.format = if (at' 7).toNat / 4 % 4 = 2 then .nes2 else .iNES))

/-- 41 R160: after a load nothing of the cartridge changes but CHR-RAM contents, and those only by a PPU-space write. -/
def Obligations.CartridgeImmutable : Prop :=
  ∀ (i : Instr) (s t : State), i.wf = true → s.cart.loaded = true → exec i s = .next t →
    t.cart = { s.cart with chr := t.cart.chr } ∧
    (∀ bytes, s.cart.chr = .rom bytes → t.cart.chr = .rom bytes) ∧
    (∀ cells, s.cart.chr = .ram cells → ∃ cells', t.cart.chr = .ram cells') ∧
    ((∀ a d, i ≠ .ppuWrChr a d) → (∀ a d, i ≠ .cpuWrReg7 a d) → i ≠ .sysStep → t.cart = s.cart)

/-- 41 R171: in a state of the invariant with a cartridge loaded, every `MapCpu` offset is inside PRG iff there is a PRG bank,
every `MapPpu` offset is inside CHR, and a step raises the mapper fault only with no PRG bank. -/
def Obligations.OffsetsInBounds : Prop :=
  ∀ s : State, s.Inv →
    (s.cart.loaded = true → (∀ a : Addr, 0x8000 ≤ a.toNat →
      ((mapCpu s.cart a).1 < s.cart.prg.length ↔ 1 ≤ Cart.prgBanks s.cart))) ∧
    Cart.chrInBounds s.cart ∧
    (∀ t a off, step s = .next t → s.fault = none → t.fault = some (.mapperOffsetOutOfBounds a off) →
      s.cart.loaded = true ∧ Cart.prgBanks s.cart = 0 ∧ 0x8000 ≤ a.toNat)

/-! ## The system manager (spec 44_system.md) -/

/-- 44 R272, R276, R277, R279, 10 R44: RESET writes exactly the listed PPU fields, and resets the CPU collaborator; POWER_ON
does so with a cartridge and nothing without one; a second reset only calls the CPU collaborator again. That the
collaborator's reset makes no transaction and is one entry of the call log is the model's (assumption 4). -/
def Obligations.ResetAndPowerOn : Prop :=
  ∀ s : State,
    let t : State :=
      { s with
        ppu :=
          { ctrl := 0, mask := 0, status := 0, v := 0, t := 0, fineX := 0, w := false, oamAddr := 0, oam := s.ppu.oam
            pal := s.ppu.pal, dataBuf := 0, bgNextTileId := 0, bgNextAttr := 0, bgNextLo := 0, bgNextHi := 0
            bgShPatLo := 0, bgShPatHi := 0, bgShAttrLo := 0, bgShAttrHi := 0
            sprites := List.replicate 8 { y := 0xFF, tile := 0xFF, attr := 0xFF, x := 0xFF, shLo := 0, shHi := 0 }
            spriteCount := 0, zeroHitPossible := false, scanline := -1, cycle := 0, oddFrame := false
            frameComplete := false, nmiPending := false, fb := s.ppu.fb }
        env := { s.env with cpuCalls := .reset :: s.env.cpuCalls } }
    exec .reset s = .next t ∧ (s.cart.loaded = true → exec .powerOn s = .next t) ∧
    (s.cart.loaded = false → exec .powerOn s = .next s) ∧
    exec .reset t = .next { t with env := { t.env with cpuCalls := .reset :: t.env.cpuCalls } }

/-- 44 R278: SET_RUN sets the toggle; paused, SYS_STEP changes nothing; every other operation acts alike, running or
paused. -/
def Obligations.RunTogglesOnlyStepping : Prop :=
  (∀ (s : State) (b : Bool), exec (.setRun b) s = .next { s with running := b }) ∧
  (∀ s : State, s.running = false → exec .sysStep s = .next s) ∧
  (∀ (i : Instr) (s : State) (b : Bool), i ≠ .sysStep → (∀ r, i ≠ .setRun r) →
    ∃ t, exec i s = .next t ∧ t.running = s.running ∧ exec i { s with running := b } = .next { t with running := b })

/-- 44 R273-R275: a system step is three PPU clocks, the delivery of a pending NMI, and one clock of the CPU collaborator;
paused it is nothing. That the collaborator does the next batch of its list in that clock, and makes no transaction when it
is handed the NMI, is the model's (assumption 4). -/
def Obligations.SystemStep : Prop :=
  ∀ s : State,
    (s.running = false → exec .sysStep s = .next s) ∧
    (s.running = true → Cart.chrInBounds s.cart →
      ∃ s1 s2 s3 : State,
        exec .ppuClock s = .next s1 ∧ exec .ppuClock s1 = .next s2 ∧ exec .ppuClock s2 = .next s3 ∧
        exec .sysStep s =
          .next
            (endState
              (runBatch (s.env.cpuBatches.headD [])
                { s3 with
                  ppu := { s3.ppu with nmiPending := false }
                  env :=
                    { s.env with
                      cpuCalls := .clock :: ((if s3.ppu.nmiPending then [.nmi] else []) ++ s.env.cpuCalls)
                      cpuBatches := s.env.cpuBatches.tail } })))

/-- 44 R274, 60 R291: a batch executes its transactions in order, each as its CPU_RD or CPU_WR word does, and stops at the
first that faults. -/
def Obligations.BatchRunsCpuWords : Prop :=
  ∀ (s : State) (txn : CpuTxn) (rest : List CpuTxn) (t : State), s.fault = none →
    (match txn with
      | .read a => exec (decodeCpuRead a) s
      | .write a d => exec (decodeCpuWrite a d) s) = .next t →
    endState (runBatch [] s) = s ∧
    endState (runBatch (txn :: rest) s) = if t.fault.isSome then t else endState (runBatch rest t)

/-- 60 R298, 70 R323: a Status read in the CPU clock of the step that ran (241, 1) sees `vblank`, clears it, and does not
cancel the NMI, which was delivered before it. -/
def Obligations.StatusReadInVblankStep : Prop :=
  ∀ (s : State) (batches : List (List CpuTxn)), s.running = true → Cart.chrInBounds s.cart →
    (s.ppu.scanline = 240 ∧ s.ppu.cycle = 340) ∨ (s.ppu.scanline = 241 ∧ (s.ppu.cycle = 0 ∨ s.ppu.cycle = 1)) →
    s.ppu.ctrl.getLsbD 7 = true → s.env.cpuBatches = [.read 0x2002] :: batches →
    ∃ t byte, exec .sysStep s = .next t ∧ t.env.cpuCalls = .clock :: .nmi :: s.env.cpuCalls ∧
      t.env.replies = byte :: s.env.replies ∧ byte.getLsbD 7 = true ∧ t.ppu.status.getLsbD 7 = false ∧
      t.ppu.w = false ∧ t.ppu.nmiPending = false

/-! ## Rendering (spec 43_ppu_rendering.md) -/

/-- 43 R222, R257-R259: a clock completes, and advances the dot counter with its wraps, the odd-frame skip and the
frameComplete pulse. -/
def Obligations.ClockAdvances : Prop :=
  ∀ s : State, Cart.chrInBounds s.cart →
    ∃ t, exec .ppuClock s = .next t ∧
      (s.ppu.cycle ≠ 340 →
        t.ppu.scanline = s.ppu.scanline ∧ t.ppu.cycle = s.ppu.cycle + 1 ∧ t.ppu.oddFrame = s.ppu.oddFrame ∧
          t.ppu.frameComplete = false) ∧
      (s.ppu.cycle = 340 → s.ppu.scanline ≠ 260 →
        t.ppu.scanline = s.ppu.scanline + 1 ∧ t.ppu.cycle = 0 ∧ t.ppu.oddFrame = s.ppu.oddFrame ∧
          t.ppu.frameComplete = false) ∧
      (s.ppu.cycle = 340 → s.ppu.scanline = 260 →
        t.ppu.scanline = -1 ∧ t.ppu.cycle = (if s.ppu.oddFrame = false ∧ s.ppu.rendering then 1 else 0) ∧
          t.ppu.oddFrame = !s.ppu.oddFrame ∧ t.ppu.frameComplete = true)

/-- 43 R220, 20 R77: what no clock changes: the byte stores, the cartridge, OAM, palette RAM, the registers the CPU writes,
the marks and the CPU chain's claim flags; and the frame buffer outside visible dots. 43 R223, R246, R254, R255: the only
dots at which `nmiPending`, each Status flag, `spriteCount` and `zeroHitPossible` can change. -/
def Obligations.ClockFrame : Prop :=
  ∀ s : State, Cart.chrInBounds s.cart →
    ∃ t, exec .ppuClock s = .next t ∧
      t = { s with
            claimed := { s.claimed with cartPpu := t.claimed.cartPpu, videoRam := t.claimed.videoRam }
            ppu := t.ppu } ∧
      t.ppu.ctrl = s.ppu.ctrl ∧ t.ppu.mask = s.ppu.mask ∧ t.ppu.t = s.ppu.t ∧ t.ppu.fineX = s.ppu.fineX ∧
      t.ppu.w = s.ppu.w ∧ t.ppu.oamAddr = s.ppu.oamAddr ∧ t.ppu.oam = s.ppu.oam ∧ t.ppu.pal = s.ppu.pal ∧
      t.ppu.dataBuf = s.ppu.dataBuf ∧ t.ppu.stale = s.ppu.stale ∧ (¬ s.ppu.onScreen → t.ppu.fb = s.ppu.fb) ∧
      (¬ s.ppu.vblankDot → t.ppu.nmiPending = s.ppu.nmiPending) ∧
      (¬ s.ppu.preRenderDot → ¬ s.ppu.vblankDot → t.ppu.status.getLsbD 7 = s.ppu.status.getLsbD 7) ∧
      (¬ s.ppu.preRenderDot → ¬ s.ppu.onScreen → t.ppu.status.getLsbD 6 = s.ppu.status.getLsbD 6) ∧
      (¬ s.ppu.preRenderDot → s.ppu.status.getLsbD 6 = true → t.ppu.status.getLsbD 6 = true) ∧
      (¬ s.ppu.preRenderDot → ¬ s.ppu.evaluationDot → t.ppu.status.getLsbD 5 = s.ppu.status.getLsbD 5) ∧
      (¬ s.ppu.evaluationDot →
        t.ppu.spriteCount = s.ppu.spriteCount ∧ t.ppu.zeroHitPossible = s.ppu.zeroHitPossible)

/-- 43 R262: a dot no trigger names does only the frameComplete clear, the composition and the advance: nothing else changes,
and outside visible dots not even the frame buffer or a flag. -/
def Obligations.UntriggeredDot : Prop :=
  ∀ s : State, ¬ s.ppu.triggered →
    ∃ t, exec .ppuClock s = .next t ∧
      t = { s with
            ppu :=
              { s.ppu with
                scanline := t.ppu.scanline, cycle := t.ppu.cycle, oddFrame := t.ppu.oddFrame
                frameComplete := t.ppu.frameComplete, status := t.ppu.status, fb := t.ppu.fb } } ∧
      t.ppu.status &&& 0xBF = s.ppu.status &&& 0xBF ∧
      (¬ s.ppu.onScreen → t.ppu.status = s.ppu.status ∧ t.ppu.fb = s.ppu.fb)

/-- 43 R223: the clock at (-1, 1) clears the three flags and the eight sprite shift pairs, and nothing else but frameComplete
and the counter changes. -/
def Obligations.PreRenderClear : Prop :=
  ∀ s : State, s.ppu.scanline = -1 → s.ppu.cycle = 1 →
    exec .ppuClock s =
      .next
        { s with
          ppu :=
            { s.ppu with
              status := s.ppu.status &&& 0x1F
              sprites := s.ppu.sprites.map (fun e => { e with shLo := 0, shHi := 0 })
              frameComplete := false
              cycle := 2 } }

/-- 43 R255: the clock at (241, 1) sets `vblank` and requests an NMI when Control bit 7 is set. No other instruction, and no
clock at another dot, raises a request, and a raised one stays until a SYS_STEP delivers it (44 R275; the call log is
assumption 4) or a PPU reset clears it (10 R44). -/
def Obligations.VblankStart : Prop :=
  ∀ s : State,
    (s.ppu.vblankDot →
      exec .ppuClock s =
        .next
          { s with
            ppu :=
              { s.ppu with
                status := s.ppu.status ||| 0x80
                nmiPending := s.ppu.nmiPending || s.ppu.ctrl.getLsbD 7
                frameComplete := false
                cycle := 2 } }) ∧
    (∀ (i : Instr) (t : State), exec i s = .next t → s.ppu.nmiPending = false → t.ppu.nmiPending = true →
      i = .ppuClock ∧ s.ppu.vblankDot ∧ s.ppu.ctrl.getLsbD 7 = true) ∧
    (∀ (i : Instr) (t : State), exec i s = .next t → s.ppu.nmiPending = true → t.ppu.nmiPending = false →
      i = .reset ∨ i = .powerOn ∨ i = .loadCart ∨
        (i = .sysStep ∧ t.env.cpuCalls = .clock :: .nmi :: s.env.cpuCalls))

/-- 43 R225, R228, R236: the background shifters: shifted in the window when the background is shown, their low bytes loaded
at step 0, still everywhere else. -/
def Obligations.BackgroundShiftAndLoad : Prop :=
  ∀ s : State, Cart.chrInBounds s.cart →
    ∃ t, exec .ppuClock s = .next t ∧
      (¬ s.ppu.inWindow →
        t.ppu.bgShPatLo = s.ppu.bgShPatLo ∧ t.ppu.bgShPatHi = s.ppu.bgShPatHi ∧
          t.ppu.bgShAttrLo = s.ppu.bgShAttrLo ∧ t.ppu.bgShAttrHi = s.ppu.bgShAttrHi) ∧
      (s.ppu.inWindow →
        let shifted : BitVec 16 → BitVec 16 := fun x =>
          if s.ppu.mask.getLsbD 3 then BitVec.ofNat 16 (2 * x.toNat) else x
        let after : BitVec 16 → Nat → BitVec 16 := fun x low =>
          if (s.ppu.cycle - 1) % 8 = 0 then BitVec.ofNat 16 ((shifted x).toNat / 256 * 256 + low) else shifted x
        t.ppu.bgShPatLo = after s.ppu.bgShPatLo s.ppu.bgNextLo.toNat ∧
          t.ppu.bgShPatHi = after s.ppu.bgShPatHi s.ppu.bgNextHi.toNat ∧
          t.ppu.bgShAttrLo = after s.ppu.bgShAttrLo (if s.ppu.bgNextAttr.getLsbD 0 then 255 else 0) ∧
          t.ppu.bgShAttrHi = after s.ppu.bgShAttrHi (if s.ppu.bgNextAttr.getLsbD 1 then 255 else 0))

/-- 43 R226, R244: the sprites' X-counters and shift pairs over the dots 2 to 257 of a rendering line, and that they hold
still from 258 to 339. At (0..239, 257) the evaluation then replaces the entries, the counter among them, and keeps the shift
pairs. -/
def Obligations.SpriteShift : Prop :=
  ∀ s : State, Cart.chrInBounds s.cart → (-1 ≤ s.ppu.scanline ∧ s.ppu.scanline ≤ 239) →
    (2 ≤ s.ppu.cycle ∧ s.ppu.cycle ≤ 339) →
    ∃ t, exec .ppuClock s = .next t ∧ t.ppu.sprites.length = s.ppu.sprites.length ∧
      (258 ≤ s.ppu.cycle → t.ppu.sprites = s.ppu.sprites) ∧
      (s.ppu.cycle ≤ 257 → ∀ (i : Nat) (e e' : Sprite), s.ppu.sprites[i]? = some e → t.ppu.sprites[i]? = some e' →
        let live : Prop := s.ppu.mask.getLsbD 4 = true ∧ i < s.ppu.spriteCount
        (live → e.x = 0 →
          e'.shLo = BitVec.ofNat 8 (2 * e.shLo.toNat) ∧ e'.shHi = BitVec.ofNat 8 (2 * e.shHi.toNat)) ∧
        (¬ (live ∧ e.x = 0) → e'.shLo = e.shLo ∧ e'.shHi = e.shHi) ∧
        (¬ (s.ppu.cycle = 257 ∧ 0 ≤ s.ppu.scanline) →
          e'.y = e.y ∧ e'.tile = e.tile ∧ e'.attr = e.attr ∧
            (live → e'.x = BitVec.ofNat 8 (e.x.toNat - 1)) ∧ (¬ live → e'.x = e.x)))

/-- 43 R227, R229, R230, R232, R233: which latch each step of the window loads, and from which PPU address; at every other
dot the latches hold still. 40 R133, 20 R68: a fetch leaves the PPU chain's claim flags of its address, and a dot without a
fetch leaves them as they were (the sprite fetches, at cycle 340, are SpriteFetch). -/
def Obligations.BackgroundFetches : Prop :=
  ∀ s : State, Cart.chrInBounds s.cart →
    let v := s.ppu.v.toNat
    let step' := (s.ppu.cycle - 1) % 8
    let row := (if s.ppu.ctrl.getLsbD 4 then 0x1000 else 0) + s.ppu.bgNextTileId.toNat * 16 + v / 4096
    let tileAt : Addr := BitVec.ofNat 16 (0x2000 + v % 0x1000)
    let attrAt : Addr :=
      BitVec.ofNat 16 (0x23C0 + v / 2048 % 2 * 0x800 + v / 1024 % 2 * 0x400 + v / 128 % 8 * 8 + v / 4 % 8)
    let lowAt : Addr := BitVec.ofNat 16 row
    let highAt : Addr := BitVec.ofNat 16 (row + 8)
    let attr := (s.ppuPeek attrAt).toNat
    let quadrant := (if v / 64 % 2 = 1 then 16 else 1) * if v / 2 % 2 = 1 then 4 else 1
    ∃ t, exec .ppuClock s = .next t ∧
      t.ppu.bgNextTileId =
        (if s.ppu.inWindow ∧ step' = 0 then s.ppuPeek tileAt else s.ppu.bgNextTileId) ∧
      t.ppu.bgNextAttr =
        (if s.ppu.inWindow ∧ step' = 2 then BitVec.ofNat 2 (attr / quadrant % 4) else s.ppu.bgNextAttr) ∧
      t.ppu.bgNextLo =
        (if s.ppu.inWindow ∧ step' = 4 then s.ppuPeek lowAt else s.ppu.bgNextLo) ∧
      t.ppu.bgNextHi =
        (if s.ppu.inWindow ∧ step' = 6 then s.ppuPeek highAt else s.ppu.bgNextHi) ∧
      (s.ppu.cycle ≠ 340 →
        t.claimed =
          if s.ppu.inWindow ∧ step' = 0 then s.claimsAfterPpu tileAt
          else if s.ppu.inWindow ∧ step' = 2 then s.claimsAfterPpu attrAt
          else if s.ppu.inWindow ∧ step' = 4 then s.claimsAfterPpu lowAt
          else if s.ppu.inWindow ∧ step' = 6 then s.claimsAfterPpu highAt
          else s.claimed)

/-- 43 R227, R235-R238: which scroll updates of `v` each dot makes, and that a dot with rendering off makes none. -/
def Obligations.ScrollUpdates : Prop :=
  ∀ s : State, Cart.chrInBounds s.cart →
    ∃ t, exec .ppuClock s = .next t ∧
      t.ppu.v =
        if s.ppu.rendering ∧ -1 ≤ s.ppu.scanline ∧ s.ppu.scanline ≤ 239 then
          if s.ppu.cycle = 256 then incScrollY (incScrollX s.ppu.v)
          else if s.ppu.cycle = 257 then transferX s.ppu.v s.ppu.t
          else if s.ppu.inWindow ∧ s.ppu.cycle % 8 = 0 then incScrollX s.ppu.v
          else if s.ppu.scanline = -1 ∧ 280 ≤ s.ppu.cycle ∧ s.ppu.cycle ≤ 304 then transferY s.ppu.v s.ppu.t
          else s.ppu.v
        else s.ppu.v

/-- 43 R234, R235, R237, R238: the scroll counters and transfers as arithmetic on the 15-bit address. -/
def Obligations.ScrollArithmetic : Prop :=
  ∀ v t : Loopy,
    let n := v.toNat
    let base := n % 4096
    (incScrollX v).toNat =
      (if n % 32 = 31 then (if n / 1024 % 2 = 0 then n - 31 + 1024 else n - 31 - 1024) else n + 1) ∧
    (incScrollY v).toNat =
      (if n / 4096 < 7 then n + 4096
        else if n / 32 % 32 = 29 then
          (if n / 2048 % 2 = 0 then base - 29 * 32 + 2048 else base - 29 * 32 - 2048)
        else if n / 32 % 32 = 31 then base - 31 * 32
        else base + 32) ∧
    transferX v t = (v &&& 0x7BE0) ||| (t &&& 0x041F) ∧ transferY v t = (v &&& 0x041F) ||| (t &&& 0x7BE0)

/-- 43 R240-R243, R245, R246: sprite evaluation at (0..239, 257): the first eight entries in range, in index order, fill the
slots; the rest hold 0xFF; the count, the sprite-0 mark and the overflow flag. -/
def Obligations.SpriteEvaluation : Prop :=
  ∀ s : State, Cart.chrInBounds s.cart → (0 ≤ s.ppu.scanline ∧ s.ppu.scanline ≤ 239) → s.ppu.cycle = 257 →
    s.ppu.sprites.length = 8 →
    let oam : Nat → Byte := fun k => storeByte .oam s.ppu.oam k
    let h : Int := if s.ppu.ctrl.getLsbD 5 then 16 else 8
    let found := (List.range 64).filter (fun n =>
      decide (((oam (4 * n)).toNat : Int) ≤ s.ppu.scanline ∧ s.ppu.scanline < ((oam (4 * n)).toNat : Int) + h))
    ∃ t, exec .ppuClock s = .next t ∧
      t.ppu.spriteCount = min 8 found.length ∧ t.ppu.zeroHitPossible = found.contains 0 ∧
      t.ppu.status.getLsbD 5 = decide (8 ≤ found.length) ∧ t.ppu.sprites.length = 8 ∧
      ∀ i e, t.ppu.sprites[i]? = some e →
        (∀ n, found[i]? = some n →
          e.y = oam (4 * n) ∧ e.tile = oam (4 * n + 1) ∧ e.attr = oam (4 * n + 2) ∧ e.x = oam (4 * n + 3)) ∧
        (found.length ≤ i → e.y = 0xFF ∧ e.tile = 0xFF ∧ e.attr = 0xFF ∧ e.x = 0xFF)

/-- 43 R248-R250: the sprite fetch at (0..239, 340): the row, the flips, the pattern address in both size modes, and the two
bytes each valid slot is loaded with; the other slots keep theirs. 40 R133, 20 R68: the PPU chain's claim flags are those of
the last fetch, the high plane of the last valid slot, and with no valid slot they are as they were. -/
def Obligations.SpriteFetch : Prop :=
  ∀ s : State, Cart.chrInBounds s.cart → (0 ≤ s.ppu.scanline ∧ s.ppu.scanline ≤ 239) → s.ppu.cycle = 340 →
    ∃ t, exec .ppuClock s = .next t ∧ t.ppu.sprites.length = s.ppu.sprites.length ∧
      (s.ppu.spriteCount = 0 → t.claimed = s.claimed) ∧
      ∀ i e, s.ppu.sprites[i]? = some e →
        let h : Nat := if s.ppu.ctrl.getLsbD 5 then 16 else 8
        let row0 := ((s.ppu.scanline - (e.y.toNat : Int)) % (h : Int)).toNat
        let row := if e.attr.getLsbD 7 then h - 1 - row0 else row0
        let low :=
          if s.ppu.ctrl.getLsbD 5 then
            e.tile.toNat % 2 * 0x1000 + (e.tile.toNat / 2 * 2 + row / 8) * 16 + row % 8
          else (if s.ppu.ctrl.getLsbD 3 then 0x1000 else 0) + e.tile.toNat * 16 + row
        (s.ppu.spriteCount ≤ i → t.ppu.sprites[i]? = some e) ∧
        (s.ppu.spriteCount = i + 1 → t.claimed = s.claimsAfterPpu (BitVec.ofNat 16 (low + 8))) ∧
        (i < s.ppu.spriteCount →
          ∃ e', t.ppu.sprites[i]? = some e' ∧ e' = { e with shLo := e'.shLo, shHi := e'.shHi } ∧
            ∀ k, k < 8 →
              let from' := if e.attr.getLsbD 6 then 7 - k else k
              e'.shLo.getLsbD k = (s.ppuPeek (BitVec.ofNat 16 low)).getLsbD from' ∧
                e'.shHi.getLsbD k = (s.ppuPeek (BitVec.ofNat 16 (low + 8))).getLsbD from')

/-- 43 R251, R252: the background pixel, and the foreground pixel as that of the first armed sprite in priority order whose
pixel is not 0. -/
def Obligations.PixelSelection : Prop :=
  ∀ p : Ppu,
    let clip : Prop := 1 ≤ p.cycle ∧ p.cycle ≤ 8
    let bit : BitVec 16 → Nat := fun sh => sh.toNat / 2 ^ (15 - p.fineX.toNat) % 2
    let pixel : Sprite → Nat := fun e => e.shHi.toNat / 128 * 2 + e.shLo.toNat / 128
    let armed : Nat → Sprite → Prop := fun i e =>
      i < p.spriteCount ∧ p.sprites[i]? = some e ∧ e.x = 0 ∧ pixel e ≠ 0
    ((p.mask.getLsbD 3 = true ∧ ¬ (clip ∧ p.mask.getLsbD 1 = false)) →
      p.bgPixel = (BitVec.ofNat 2 (2 * bit p.bgShPatHi + bit p.bgShPatLo),
        BitVec.ofNat 2 (2 * bit p.bgShAttrHi + bit p.bgShAttrLo))) ∧
    (¬ (p.mask.getLsbD 3 = true ∧ ¬ (clip ∧ p.mask.getLsbD 1 = false)) → p.bgPixel = (0, 0)) ∧
    ((p.mask.getLsbD 4 = true ∧ ¬ (clip ∧ p.mask.getLsbD 2 = false)) →
      (∀ i e, armed i e → (∀ j e', j < i → ¬ armed j e') →
        p.fgPixel =
          { pixel := BitVec.ofNat 2 (pixel e), pal := BitVec.ofNat 3 (4 + e.attr.toNat % 4)
            behind := e.attr.getLsbD 5, zeroRendered := decide (i = 0) }) ∧
      ((∀ i e, ¬ armed i e) →
        p.fgPixel = { pixel := 0, pal := 0, behind := false, zeroRendered := false })) ∧
    (¬ (p.mask.getLsbD 4 = true ∧ ¬ (clip ∧ p.mask.getLsbD 2 = false)) →
      p.fgPixel = { pixel := 0, pal := 0, behind := false, zeroRendered := false })

/-- 43 R253, R254, R256, 30 R99: priority, the palette entry of the winning pixel, and when sprite 0 hits. -/
def Obligations.PriorityAndColour : Prop :=
  ∀ p : Ppu,
    let bg := p.bgPixel.1.toNat
    let fg := p.fgPixel.pixel.toNat
    let bgWins : Prop := bg ≠ 0 ∧ (fg = 0 ∨ p.fgPixel.behind = true)
    let index :=
      if bg = 0 ∧ fg = 0 then 0
      else if bgWins then 4 * p.bgPixel.2.toNat + bg
      else 4 * p.fgPixel.pal.toNat + fg
    p.colour = (p.palRead (BitVec.ofNat 16 (0x3F00 + index))).setWidth 6 ∧
    (p.zeroHitNow = true ↔
      bg ≠ 0 ∧ fg ≠ 0 ∧ p.fgPixel.zeroRendered = true ∧ p.zeroHitPossible = true ∧ p.onScreen)

/-- 43 R254, R256: the clock of a visible dot writes the composed colour at row `scanline`, column `cycle - 1`, leaves every
other element, and ors the sprite-0 hit into Status bit 6; at any other dot it writes none and sets no hit. The pixel is
composed after the dot's rendering events, before the counter advances. -/
def Obligations.PixelComposition : Prop :=
  ∀ s : State, Cart.chrInBounds s.cart →
    ∃ t, exec .ppuClock s = .next t ∧
      let dot : Ppu := { t.ppu with scanline := s.ppu.scanline, cycle := s.ppu.cycle }
      let key := 256 * s.ppu.scanline.toNat + (s.ppu.cycle - 1)
      (s.ppu.onScreen →
        (∀ k, pixelAt t.ppu.fb k = if k = key then dot.colour else pixelAt s.ppu.fb k) ∧
        t.ppu.status.getLsbD 6 = (s.ppu.status.getLsbD 6 || dot.zeroHitNow)) ∧
      (¬ s.ppu.onScreen →
        t.ppu.fb = s.ppu.fb ∧ (t.ppu.status.getLsbD 6 = true → s.ppu.status.getLsbD 6 = true))

/-- 43 R261, 70 R313: 89342 clocks from (-1, 0) with rendering disabled are one frame: they end at (-1, 0) with `vblank` set
and `oddFrame` toggled, and `frameComplete` pulses once, at the end. -/
def Obligations.FrameWithRenderingDisabled : Prop :=
  ∀ s : State, Cart.chrInBounds s.cart → s.ppu.scanline = -1 → s.ppu.cycle = 0 → ¬ s.ppu.rendering →
    (∃ t, clocks (341 * 262) s = .ok t ∧ t.ppu.scanline = -1 ∧ t.ppu.cycle = 0 ∧ t.ppu.status.getLsbD 7 = true ∧
      t.ppu.oddFrame = !s.ppu.oddFrame ∧ t.ppu.frameComplete = true) ∧
    (∀ n, 0 < n → n < 341 * 262 → ∃ u, clocks n s = .ok u ∧ u.ppu.frameComplete = false)

/-- 43 R258, R261, 70 R325: with rendering enabled and never switched off, the frame that starts at (-1, 0) even ends at
(-1, 1) odd, and the odd frame that starts there ends 89341 clocks later at (-1, 0). -/
def Obligations.OddFrameSkip : Prop :=
  ∀ s : State, Cart.chrInBounds s.cart → s.ppu.scanline = -1 → s.ppu.rendering →
    (s.ppu.cycle = 0 → s.ppu.oddFrame = false →
      ∃ t, clocks (341 * 262) s = .ok t ∧ t.ppu.scanline = -1 ∧ t.ppu.cycle = 1 ∧ t.ppu.oddFrame = true ∧
        t.ppu.frameComplete = true) ∧
    (s.ppu.cycle = 1 → s.ppu.oddFrame = true →
      ∃ t, clocks (341 * 262 - 1) s = .ok t ∧ t.ppu.scanline = -1 ∧ t.ppu.cycle = 0 ∧ t.ppu.oddFrame = false ∧
        t.ppu.frameComplete = true)

/-! ## The whole machine -/

/-- 10 R26-R37, 40 R135, 41 R166: every step keeps the invariant: legal dot counter and slots, stale bits 0, at most one
claimer per chain, stores in canonical form and in bounds, the cartridge as a load leaves it. -/
def Obligations.StepKeepsInvariant : Prop :=
  ∀ s t : State, s.Inv → step s = .next t → t.Inv

/-- 10 R45: the state as constructed meets the invariant. -/
def Obligations.ResetMeetsInvariant : Prop := State.reset.Inv

/-- 10 R42, R20, R22: every step answers a next state (assumption 3); it never changes a fault once set, never clears a
refusal, and changes neither the parameters nor the wiring of callbacks. -/
def Obligations.MarksAndConfigKept : Prop :=
  ∀ s : State, ∃ t, step s = .next t ∧ (s.fault.isSome = true → t.fault = s.fault) ∧
    (s.refused.isSome = true → t.refused.isSome = true) ∧ t.config = s.config ∧ t.cart.callbacks = s.cart.callbacks

/-- 10 R45, 70 R311: the state as constructed. The unwritten stores read as power-up draws (assumption 6); the environment's
fields are the model's (assumptions 1, 4, 5, 7). -/
def Obligations.ConstructionState : Prop :=
  exec .reset State.reset =
    .next { State.reset with env := { State.reset.env with cpuCalls := .reset :: State.reset.env.cpuCalls } } ∧
  State.reset.claimed =
    { cartCpu := false, cartPpu := false, ppu := false, workRam := false, videoRam := false } ∧
  State.reset.running = true ∧ State.reset.fault = none ∧ State.reset.refused = none ∧
  State.reset.cart.loaded = false ∧ State.reset.cart.prg = [] ∧ State.reset.cart.chr = .rom [] ∧
  State.reset.cart.mapper = .nrom ∧ State.reset.cart.callbacks = [.onCartridgeLoaded] ∧
  (∀ k, storeByte .wram State.reset.wram k = Config.powerUp .wram k) ∧
  (∀ k, storeByte .vram State.reset.vram k = Config.powerUp .vram k) ∧
  (∀ k, storeByte .oam State.reset.ppu.oam k = Config.powerUp .oam k) ∧
  (∀ k, storeByte .pal State.reset.ppu.pal k = Config.powerUp .pal k) ∧
  (∀ k, pixelAt State.reset.ppu.fb k = Config.powerUpPixel k)
end

