-- ==== Sys2Proof/Laws/Bits.lean ====
section
/-!
SUPPORT. Bit-level laws: masks as numbers, the Status bits, and the fields of a loopy address.
-/
namespace Sys2Proof.Machine

/-! ## Masks -/

theorem addr14_toNat (a : Addr) : (a &&& 0x3FFF).toNat = a.toNat % 0x4000 := by
  simpa using Nat.and_two_pow_sub_one_eq_mod a.toNat 14

theorem addr14_idem (a : Addr) : (a &&& 0x3FFF) &&& 0x3FFF = a &&& 0x3FFF := by
  rw [BitVec.and_assoc, BitVec.and_self]

theorem regIndex_eq (a : Addr) : regIndex a = a.toNat % 8 := by
  have h : (a &&& 0x2007) &&& 0x0007 = a &&& (0x0007 : Addr) := by rw [BitVec.and_assoc]; rfl
  simp only [regIndex, h]
  simpa using Nat.and_two_pow_sub_one_eq_mod a.toNat 3

theorem low3_toNat (a : Addr) : (a &&& 0x0007).toNat = a.toNat % 8 := by
  simpa using Nat.and_two_pow_sub_one_eq_mod a.toNat 3

/-- The top three address bits name the 8 KiB block. -/
theorem block_toNat (a : Addr) : (a &&& 0xE000).toNat = a.toNat / 0x2000 * 0x2000 := by
  have hbit : ∀ j : Fin 16, (0xE000#16).getLsbD j.1 = decide (13 ≤ j.1) := by decide
  have h : a &&& 0xE000#16 = (a >>> 13) <<< 13 := by
    apply BitVec.eq_of_getLsbD_eq
    intro i hi
    have hj := hbit ⟨i, hi⟩
    simp only at hj
    rw [BitVec.getLsbD_and, hj, BitVec.getLsbD_shiftLeft, BitVec.getLsbD_ushiftRight]
    by_cases h13 : i < 13
    · simp [h13, Nat.not_le.2 h13]
    · have : 13 + (i - 13) = i := by omega
      simp [h13, this, hi, Nat.le_of_not_lt h13]
  have h' := congrArg BitVec.toNat h
  rw [BitVec.toNat_shiftLeft, BitVec.toNat_ushiftRight, Nat.shiftLeft_eq, Nat.shiftRight_eq_div_pow] at h'
  have := a.isLt
  have hn : (a &&& 0xE000).toNat = (a &&& 0xE000#16).toNat := rfl
  omega

theorem palIndex_lt (a : Addr) : palIndex a < 32 := by
  have h : (a &&& 0x1F).toNat = a.toNat % 32 := by simpa using Nat.and_two_pow_sub_one_eq_mod a.toNat 5
  simp only [palIndex, h]
  split <;> omega

theorem and_le_mask (a m : Addr) : (a &&& m).toNat ≤ m.toNat := by
  rw [BitVec.toNat_and]; exact Nat.and_le_right

theorem defaultNametableMap_lt (vertical : Bool) (a : Addr) : defaultNametableMap vertical a < 2048 := by
  unfold defaultNametableMap
  simp only
  split
  · have := and_le_mask (a &&& 0x0FFF) 0x07FF
    exact Nat.lt_succ_of_le this
  · rw [BitVec.toNat_or]
    refine Nat.or_lt_two_pow (n := 11) ?_ ?_
    · have h := and_le_mask (a &&& 0x0FFF) 0x0800
      have h2 : ((0x0800 : Addr)).toNat = 2048 := rfl
      rw [BitVec.toNat_ushiftRight, Nat.shiftRight_eq_div_pow]
      omega
    · have h := and_le_mask (a &&& 0x0FFF) 0x03FF
      have h2 : ((0x03FF : Addr)).toNat = 1023 := rfl
      omega

/-! ## Status bits -/

theorem getLsbD_setBit (x : Byte) (i j : Nat) (b : Bool) (hj : j < 8) :
    (setBit x i b).getLsbD j = if j = i then b else x.getLsbD j := by
  unfold setBit
  by_cases hji : j = i
  · subst hji
    cases b <;> simp [hj]
  · cases b <;> simp [hji, hj]

/-- Setting a flag leaves the stale bits alone. -/
theorem stale_setBit (x : Byte) (i : Nat) (b : Bool) (hi : 5 ≤ i) :
    (setBit x i b).extractLsb' 0 5 = x.extractLsb' 0 5 := by
  ext j hj
  have h8 : j < 8 := by omega
  have hne : j ≠ i := by omega
  simp [getLsbD_setBit x i j b h8, hne]

/-! ## Loopy fields (10 R27) -/

/-- Every bit of a loopy address built from its fields. -/
theorem Loopy.getLsbD_ofFields (fy : BitVec 3) (ny nx : Bool) (cy cx : BitVec 5) (i : Nat) :
    (Loopy.ofFields fy ny nx cy cx).getLsbD i =
      if i < 5 then cx.getLsbD i
      else if i < 10 then cy.getLsbD (i - 5)
      else if i = 10 then nx
      else if i = 11 then ny
      else fy.getLsbD (i - 12) := by
  show @BitVec.getLsbD (3 + 1 + 1 + 5 + 5) (fy ++ BitVec.ofBool ny ++ BitVec.ofBool nx ++ cy ++ cx) i = _
  simp only [BitVec.getLsbD_append, BitVec.getLsbD_ofBool]
  by_cases h5 : i < 5
  · simp [h5]
  · by_cases h10 : i < 10
    · have : i - 5 < 5 := by omega
      simp [h5, h10, this]
    · by_cases h11 : i = 10
      · simp [h11]
      · by_cases h12 : i = 11
        · simp [h12]
        · have h1 : ¬ i - 5 < 5 := by omega
          have h2 : ¬ i - 5 - 5 < 1 := by omega
          have h3 : ¬ i - 5 - 5 - 1 < 1 := by omega
          have h4 : i - 5 - 5 - 1 - 1 = i - 12 := by omega
          rw [if_neg h5, if_neg h1, if_neg h2, if_neg h3, h4, if_neg h5, if_neg h10, if_neg h11, if_neg h12]

section Fields
variable (fy : BitVec 3) (ny nx : Bool) (cy cx : BitVec 5)

@[simp] theorem Loopy.coarseX_ofFields : Loopy.coarseX (Loopy.ofFields fy ny nx cy cx) = cx := by
  apply BitVec.eq_of_getLsbD_eq
  intro i hi
  simp [Loopy.coarseX, Loopy.getLsbD_ofFields, hi]

@[simp] theorem Loopy.coarseY_ofFields : Loopy.coarseY (Loopy.ofFields fy ny nx cy cx) = cy := by
  apply BitVec.eq_of_getLsbD_eq
  intro i hi
  have h1 : ¬ 5 + i < 5 := by omega
  have h2 : 5 + i < 10 := by omega
  simp only [Loopy.coarseY, BitVec.getLsbD_extractLsb', Loopy.getLsbD_ofFields, h1, h2, if_false, if_true,
    Nat.add_sub_cancel_left, hi, decide_true, Bool.true_and]

@[simp] theorem Loopy.nametableX_ofFields : Loopy.nametableX (Loopy.ofFields fy ny nx cy cx) = nx := by
  simp only [Loopy.nametableX, Loopy.getLsbD_ofFields]
  simp

@[simp] theorem Loopy.nametableY_ofFields : Loopy.nametableY (Loopy.ofFields fy ny nx cy cx) = ny := by
  simp only [Loopy.nametableY, Loopy.getLsbD_ofFields]
  simp

@[simp] theorem Loopy.fineY_ofFields : Loopy.fineY (Loopy.ofFields fy ny nx cy cx) = fy := by
  apply BitVec.eq_of_getLsbD_eq
  intro i hi
  have h1 : ¬ 12 + i < 5 := by omega
  have h2 : ¬ 12 + i < 10 := by omega
  have h3 : ¬ 12 + i = 10 := by omega
  have h4 : ¬ 12 + i = 11 := by omega
  simp only [Loopy.fineY, BitVec.getLsbD_extractLsb', Loopy.getLsbD_ofFields, h1, h2, h3, h4, if_false,
    Nat.add_sub_cancel_left, hi, decide_true, Bool.true_and]

end Fields

/-- A loopy address is its five fields. -/
theorem Loopy.ofFields_fields (v : Loopy) :
    Loopy.ofFields (Loopy.fineY v) (Loopy.nametableY v) (Loopy.nametableX v) (Loopy.coarseY v) (Loopy.coarseX v) = v := by
  apply BitVec.eq_of_getLsbD_eq
  intro i hi
  rw [Loopy.getLsbD_ofFields]
  simp only [Loopy.fineY, Loopy.nametableY, Loopy.nametableX, Loopy.coarseY, Loopy.coarseX, BitVec.getLsbD_extractLsb']
  by_cases h5 : i < 5
  · simp [h5]
  · by_cases h10 : i < 10
    · have h1 : i - 5 < 5 := by omega
      have h2 : 5 + (i - 5) = i := by omega
      simp [h5, h10, h1, h2]
    · by_cases h11 : i = 10
      · simp [h11]
      · by_cases h12 : i = 11
        · simp [h12]
        · have h1 : i - 12 < 3 := by omega
          have h2 : 12 + (i - 12) = i := by omega
          simp [h5, h10, h11, h12, h1, h2]

/-- Two loopy addresses with the same five fields are equal. -/
theorem Loopy.ext_fields {v w : Loopy} (hf : Loopy.fineY v = Loopy.fineY w) (hny : Loopy.nametableY v = Loopy.nametableY w)
    (hnx : Loopy.nametableX v = Loopy.nametableX w) (hcy : Loopy.coarseY v = Loopy.coarseY w)
    (hcx : Loopy.coarseX v = Loopy.coarseX w) : v = w := by
  rw [← Loopy.ofFields_fields v, ← Loopy.ofFields_fields w, hf, hny, hnx, hcy, hcx]

end Sys2Proof.Machine
end

