-- ==== Sys2Proof/Laws/Memory.lean ====
section
/-!
SUPPORT. The laws of the stores: what is read after a write, and that a write keeps the canonical form and the bound.
-/
namespace Sys2Proof.Machine

variable {w : Nat}

@[simp] theorem Memory.get?_nil (a : Nat) : Memory.get? ([] : Memory w) a = none := rfl

theorem Memory.get?_put_same (m : Memory w) (a : Nat) (v : BitVec w) : Memory.get? (Memory.put m a v) a = some v := by
  induction m with
  | nil => simp [Memory.put, Memory.get?]
  | cons c m ih =>
    obtain ⟨k, x⟩ := c
    unfold Memory.put
    split
    · simp [Memory.get?]
    · split
      · simp [Memory.get?]
      · rename_i h
        simp [Memory.get?, Ne.symm h, ih]

theorem Memory.get?_put_other (m : Memory w) {a b : Nat} (v : BitVec w) (h : b ≠ a) :
    Memory.get? (Memory.put m a v) b = Memory.get? m b := by
  induction m with
  | nil => simp [Memory.put, Memory.get?, Ne.symm h]
  | cons c m ih =>
    obtain ⟨k, x⟩ := c
    unfold Memory.put
    split
    · simp [Memory.get?, Ne.symm h]
    · split
      · rename_i h1 h2
        subst h2
        simp [Memory.get?, Ne.symm h]
      · simp [Memory.get?, ih]

@[simp] theorem storeByte_put_same (id : StoreId) (m : Memory 8) (a : Nat) (v : Byte) :
    storeByte id (Memory.put m a v) a = v := by simp [storeByte, Memory.get?_put_same]

theorem storeByte_put_other (id : StoreId) (m : Memory 8) {a b : Nat} (v : Byte) (h : b ≠ a) :
    storeByte id (Memory.put m a v) b = storeByte id m b := by simp [storeByte, Memory.get?_put_other m v h]

@[simp] theorem pixelAt_put_same (m : Memory 6) (a : Nat) (v : BitVec 6) : pixelAt (Memory.put m a v) a = v := by
  simp [pixelAt, Memory.get?_put_same]

theorem pixelAt_put_other (m : Memory 6) {a b : Nat} (v : BitVec 6) (h : b ≠ a) :
    pixelAt (Memory.put m a v) b = pixelAt m b := by simp [pixelAt, Memory.get?_put_other m v h]

theorem Memory.wfAbove_put (m : Memory w) {lo a : Nat} (v : BitVec w) (hlo : lo < a) (h : Memory.wfAbove lo m = true) :
    Memory.wfAbove lo (Memory.put m a v) = true := by
  induction m generalizing lo with
  | nil => simp [Memory.put, Memory.wfAbove, hlo]
  | cons c m ih =>
    obtain ⟨k, x⟩ := c
    simp only [Memory.wfAbove, Bool.and_eq_true, decide_eq_true_eq] at h
    unfold Memory.put
    split
    · rename_i hak
      simp [Memory.wfAbove, hlo, hak, h.2]
    · split
      · rename_i hak
        subst hak
        simp [Memory.wfAbove, h]
      · simp only [Memory.wfAbove, Bool.and_eq_true, decide_eq_true_eq]
        exact ⟨h.1, ih (by omega) h.2⟩

/-- A write keeps the canonical form. -/
theorem Memory.wf_put (m : Memory w) (a : Nat) (v : BitVec w) (h : Memory.wf m = true) :
    Memory.wf (Memory.put m a v) = true := by
  cases m with
  | nil => rfl
  | cons c m =>
    obtain ⟨k, x⟩ := c
    simp only [Memory.wf] at h
    unfold Memory.put
    split
    · rename_i hak
      simp [Memory.wf, Memory.wfAbove, hak, h]
    · split
      · rename_i hak
        subst hak
        simpa [Memory.wf] using h
      · exact Memory.wfAbove_put m v (by omega) h

/-- A write below `n` keeps every cell below `n`. -/
theorem Memory.below_put (m : Memory w) {n a : Nat} (v : BitVec w) (ha : a < n) (h : Memory.below n m = true) :
    Memory.below n (Memory.put m a v) = true := by
  induction m with
  | nil => simp [Memory.put, Memory.below, ha]
  | cons c m ih =>
    obtain ⟨k, x⟩ := c
    simp only [Memory.below, List.all_cons, Bool.and_eq_true, decide_eq_true_eq] at h
    unfold Memory.put
    split
    · simp [Memory.below, ha, h]
    · split
      · simp [Memory.below, ha, h]
      · have := ih h.2
        simp only [Memory.below] at this
        simp [Memory.below, h.1, this]

theorem Memory.fits_put (m : Memory w) {n a : Nat} (v : BitVec w) (ha : a < n) (h : Memory.fits n m) :
    Memory.fits n (Memory.put m a v) := ⟨Memory.wf_put m a v h.1, Memory.below_put m v ha h.2⟩

/-- The stores of the state after construction are in canonical form. -/
theorem reset_stores_wf : Memory.wf State.reset.wram = true ∧ Memory.wf State.reset.vram = true ∧
    Memory.wf State.reset.ppu.oam = true ∧ Memory.wf State.reset.ppu.pal = true ∧ Memory.wf State.reset.ppu.fb = true := by
  decide

end Sys2Proof.Machine
end

