-- ==== Sys2Proof/Laws/State.lean ====
section
/-!
SUPPORT. The fields of the state after each named update, one lemma per field per update.
-/
namespace Sys2Proof.Machine

@[simp] theorem State.mapPpu_claimed (f : Ppu → Ppu) (s : State) : (s.mapPpu f).claimed = s.claimed := rfl
@[simp] theorem State.mapPpu_wram (f : Ppu → Ppu) (s : State) : (s.mapPpu f).wram = s.wram := rfl
@[simp] theorem State.mapPpu_vram (f : Ppu → Ppu) (s : State) : (s.mapPpu f).vram = s.vram := rfl
@[simp] theorem State.mapPpu_cart (f : Ppu → Ppu) (s : State) : (s.mapPpu f).cart = s.cart := rfl
@[simp] theorem State.mapPpu_ppu (f : Ppu → Ppu) (s : State) : (s.mapPpu f).ppu = f s.ppu := rfl
@[simp] theorem State.mapPpu_running (f : Ppu → Ppu) (s : State) : (s.mapPpu f).running = s.running := rfl
@[simp] theorem State.mapPpu_fault (f : Ppu → Ppu) (s : State) : (s.mapPpu f).fault = s.fault := rfl
@[simp] theorem State.mapPpu_refused (f : Ppu → Ppu) (s : State) : (s.mapPpu f).refused = s.refused := rfl
@[simp] theorem State.mapPpu_config (f : Ppu → Ppu) (s : State) : (s.mapPpu f).config = s.config := rfl
@[simp] theorem State.mapPpu_env (f : Ppu → Ppu) (s : State) : (s.mapPpu f).env = s.env := rfl

@[simp] theorem State.setClaim_claimed (d : DeviceId) (b : Bool) (s : State) : (s.setClaim d b).claimed = Claims.set s.claimed d b := rfl
@[simp] theorem State.setClaim_wram (d : DeviceId) (b : Bool) (s : State) : (s.setClaim d b).wram = s.wram := rfl
@[simp] theorem State.setClaim_vram (d : DeviceId) (b : Bool) (s : State) : (s.setClaim d b).vram = s.vram := rfl
@[simp] theorem State.setClaim_cart (d : DeviceId) (b : Bool) (s : State) : (s.setClaim d b).cart = s.cart := rfl
@[simp] theorem State.setClaim_ppu (d : DeviceId) (b : Bool) (s : State) : (s.setClaim d b).ppu = s.ppu := rfl
@[simp] theorem State.setClaim_running (d : DeviceId) (b : Bool) (s : State) : (s.setClaim d b).running = s.running := rfl
@[simp] theorem State.setClaim_fault (d : DeviceId) (b : Bool) (s : State) : (s.setClaim d b).fault = s.fault := rfl
@[simp] theorem State.setClaim_refused (d : DeviceId) (b : Bool) (s : State) : (s.setClaim d b).refused = s.refused := rfl
@[simp] theorem State.setClaim_config (d : DeviceId) (b : Bool) (s : State) : (s.setClaim d b).config = s.config := rfl
@[simp] theorem State.setClaim_env (d : DeviceId) (b : Bool) (s : State) : (s.setClaim d b).env = s.env := rfl

@[simp] theorem State.reply_claimed (b : Byte) (s : State) : (s.reply b).claimed = s.claimed := rfl
@[simp] theorem State.reply_wram (b : Byte) (s : State) : (s.reply b).wram = s.wram := rfl
@[simp] theorem State.reply_vram (b : Byte) (s : State) : (s.reply b).vram = s.vram := rfl
@[simp] theorem State.reply_cart (b : Byte) (s : State) : (s.reply b).cart = s.cart := rfl
@[simp] theorem State.reply_ppu (b : Byte) (s : State) : (s.reply b).ppu = s.ppu := rfl
@[simp] theorem State.reply_running (b : Byte) (s : State) : (s.reply b).running = s.running := rfl
@[simp] theorem State.reply_fault (b : Byte) (s : State) : (s.reply b).fault = s.fault := rfl
@[simp] theorem State.reply_refused (b : Byte) (s : State) : (s.reply b).refused = s.refused := rfl
@[simp] theorem State.reply_config (b : Byte) (s : State) : (s.reply b).config = s.config := rfl
@[simp] theorem State.reply_env (b : Byte) (s : State) : (s.reply b).env = { s.env with replies := b :: s.env.replies } := rfl

@[simp] theorem raiseFault_claimed (f : Fault) (s : State) : (raiseFault f s).claimed = s.claimed := rfl
@[simp] theorem raiseFault_wram (f : Fault) (s : State) : (raiseFault f s).wram = s.wram := rfl
@[simp] theorem raiseFault_vram (f : Fault) (s : State) : (raiseFault f s).vram = s.vram := rfl
@[simp] theorem raiseFault_cart (f : Fault) (s : State) : (raiseFault f s).cart = s.cart := rfl
@[simp] theorem raiseFault_ppu (f : Fault) (s : State) : (raiseFault f s).ppu = s.ppu := rfl
@[simp] theorem raiseFault_running (f : Fault) (s : State) : (raiseFault f s).running = s.running := rfl
@[simp] theorem raiseFault_fault (f : Fault) (s : State) : (raiseFault f s).fault = some f := rfl
@[simp] theorem raiseFault_refused (f : Fault) (s : State) : (raiseFault f s).refused = s.refused := rfl
@[simp] theorem raiseFault_config (f : Fault) (s : State) : (raiseFault f s).config = s.config := rfl
@[simp] theorem raiseFault_env (f : Fault) (s : State) : (raiseFault f s).env = s.env := rfl

@[simp] theorem refuse_claimed (r : Refusal) (s : State) : (refuse r s).claimed = s.claimed := rfl
@[simp] theorem refuse_wram (r : Refusal) (s : State) : (refuse r s).wram = s.wram := rfl
@[simp] theorem refuse_vram (r : Refusal) (s : State) : (refuse r s).vram = s.vram := rfl
@[simp] theorem refuse_cart (r : Refusal) (s : State) : (refuse r s).cart = s.cart := rfl
@[simp] theorem refuse_ppu (r : Refusal) (s : State) : (refuse r s).ppu = s.ppu := rfl
@[simp] theorem refuse_running (r : Refusal) (s : State) : (refuse r s).running = s.running := rfl
@[simp] theorem refuse_fault (r : Refusal) (s : State) : (refuse r s).fault = s.fault := rfl
@[simp] theorem refuse_refused (r : Refusal) (s : State) : (refuse r s).refused = some r := rfl
@[simp] theorem refuse_config (r : Refusal) (s : State) : (refuse r s).config = s.config := rfl
@[simp] theorem refuse_env (r : Refusal) (s : State) : (refuse r s).env = s.env := rfl

@[simp] theorem callCpu_claimed (c : CpuCall) (s : State) : (callCpu c s).claimed = s.claimed := rfl
@[simp] theorem callCpu_wram (c : CpuCall) (s : State) : (callCpu c s).wram = s.wram := rfl
@[simp] theorem callCpu_vram (c : CpuCall) (s : State) : (callCpu c s).vram = s.vram := rfl
@[simp] theorem callCpu_cart (c : CpuCall) (s : State) : (callCpu c s).cart = s.cart := rfl
@[simp] theorem callCpu_ppu (c : CpuCall) (s : State) : (callCpu c s).ppu = s.ppu := rfl
@[simp] theorem callCpu_running (c : CpuCall) (s : State) : (callCpu c s).running = s.running := rfl
@[simp] theorem callCpu_fault (c : CpuCall) (s : State) : (callCpu c s).fault = s.fault := rfl
@[simp] theorem callCpu_refused (c : CpuCall) (s : State) : (callCpu c s).refused = s.refused := rfl
@[simp] theorem callCpu_config (c : CpuCall) (s : State) : (callCpu c s).config = s.config := rfl
@[simp] theorem callCpu_env (c : CpuCall) (s : State) : (callCpu c s).env = { s.env with cpuCalls := c :: s.env.cpuCalls } := rfl

@[simp] theorem dropBatch_claimed (s : State) : (dropBatch s).claimed = s.claimed := rfl
@[simp] theorem dropBatch_wram (s : State) : (dropBatch s).wram = s.wram := rfl
@[simp] theorem dropBatch_vram (s : State) : (dropBatch s).vram = s.vram := rfl
@[simp] theorem dropBatch_cart (s : State) : (dropBatch s).cart = s.cart := rfl
@[simp] theorem dropBatch_ppu (s : State) : (dropBatch s).ppu = s.ppu := rfl
@[simp] theorem dropBatch_running (s : State) : (dropBatch s).running = s.running := rfl
@[simp] theorem dropBatch_fault (s : State) : (dropBatch s).fault = s.fault := rfl
@[simp] theorem dropBatch_refused (s : State) : (dropBatch s).refused = s.refused := rfl
@[simp] theorem dropBatch_config (s : State) : (dropBatch s).config = s.config := rfl
@[simp] theorem dropBatch_env (s : State) : (dropBatch s).env = { s.env with cpuBatches := s.env.cpuBatches.tail } := rfl

@[simp] theorem takeRequest_claimed (r : Request) (rest : List Request) (s : State) : (takeRequest r rest s).claimed = s.claimed := rfl
@[simp] theorem takeRequest_wram (r : Request) (rest : List Request) (s : State) : (takeRequest r rest s).wram = s.wram := rfl
@[simp] theorem takeRequest_vram (r : Request) (rest : List Request) (s : State) : (takeRequest r rest s).vram = s.vram := rfl
@[simp] theorem takeRequest_cart (r : Request) (rest : List Request) (s : State) : (takeRequest r rest s).cart = s.cart := rfl
@[simp] theorem takeRequest_ppu (r : Request) (rest : List Request) (s : State) : (takeRequest r rest s).ppu = s.ppu := rfl
@[simp] theorem takeRequest_running (r : Request) (rest : List Request) (s : State) : (takeRequest r rest s).running = s.running := rfl
@[simp] theorem takeRequest_fault (r : Request) (rest : List Request) (s : State) : (takeRequest r rest s).fault = s.fault := rfl
@[simp] theorem takeRequest_refused (r : Request) (rest : List Request) (s : State) : (takeRequest r rest s).refused = s.refused := rfl
@[simp] theorem takeRequest_config (r : Request) (rest : List Request) (s : State) : (takeRequest r rest s).config = s.config := rfl
@[simp] theorem takeRequest_env (r : Request) (rest : List Request) (s : State) : (takeRequest r rest s).env = { s.env with requests := rest, operand := r.image } := rfl

@[simp] theorem issueFirst_claimed (r : Request) (s : State) : (issueFirst r s).claimed = s.claimed := rfl
@[simp] theorem issueFirst_wram (r : Request) (s : State) : (issueFirst r s).wram = s.wram := rfl
@[simp] theorem issueFirst_vram (r : Request) (s : State) : (issueFirst r s).vram = s.vram := rfl
@[simp] theorem issueFirst_cart (r : Request) (s : State) : (issueFirst r s).cart = s.cart := rfl
@[simp] theorem issueFirst_ppu (r : Request) (s : State) : (issueFirst r s).ppu = s.ppu := rfl
@[simp] theorem issueFirst_running (r : Request) (s : State) : (issueFirst r s).running = s.running := rfl
@[simp] theorem issueFirst_fault (r : Request) (s : State) : (issueFirst r s).fault = s.fault := rfl
@[simp] theorem issueFirst_refused (r : Request) (s : State) : (issueFirst r s).refused = s.refused := rfl
@[simp] theorem issueFirst_config (r : Request) (s : State) : (issueFirst r s).config = s.config := rfl
@[simp] theorem issueFirst_env (r : Request) (s : State) : (issueFirst r s).env = { s.env with requests := r :: s.env.requests } := rfl

/-! Claim flags. -/

@[simp] theorem Claims.get_cartCpu (c : Claims) : Claims.get c .cartCpu = c.cartCpu := rfl
@[simp] theorem Claims.get_cartPpu (c : Claims) : Claims.get c .cartPpu = c.cartPpu := rfl
@[simp] theorem Claims.get_ppu (c : Claims) : Claims.get c .ppu = c.ppu := rfl
@[simp] theorem Claims.get_workRam (c : Claims) : Claims.get c .workRam = c.workRam := rfl
@[simp] theorem Claims.get_videoRam (c : Claims) : Claims.get c .videoRam = c.videoRam := rfl
@[simp] theorem Claims.set_cartCpu_cartCpu (c : Claims) (b : Bool) : (Claims.set c .cartCpu b).cartCpu = b := rfl
@[simp] theorem Claims.set_cartCpu_cartPpu (c : Claims) (b : Bool) : (Claims.set c .cartCpu b).cartPpu = c.cartPpu := rfl
@[simp] theorem Claims.set_cartCpu_ppu (c : Claims) (b : Bool) : (Claims.set c .cartCpu b).ppu = c.ppu := rfl
@[simp] theorem Claims.set_cartCpu_workRam (c : Claims) (b : Bool) : (Claims.set c .cartCpu b).workRam = c.workRam := rfl
@[simp] theorem Claims.set_cartCpu_videoRam (c : Claims) (b : Bool) : (Claims.set c .cartCpu b).videoRam = c.videoRam := rfl
@[simp] theorem Claims.set_cartPpu_cartCpu (c : Claims) (b : Bool) : (Claims.set c .cartPpu b).cartCpu = c.cartCpu := rfl
@[simp] theorem Claims.set_cartPpu_cartPpu (c : Claims) (b : Bool) : (Claims.set c .cartPpu b).cartPpu = b := rfl
@[simp] theorem Claims.set_cartPpu_ppu (c : Claims) (b : Bool) : (Claims.set c .cartPpu b).ppu = c.ppu := rfl
@[simp] theorem Claims.set_cartPpu_workRam (c : Claims) (b : Bool) : (Claims.set c .cartPpu b).workRam = c.workRam := rfl
@[simp] theorem Claims.set_cartPpu_videoRam (c : Claims) (b : Bool) : (Claims.set c .cartPpu b).videoRam = c.videoRam := rfl
@[simp] theorem Claims.set_ppu_cartCpu (c : Claims) (b : Bool) : (Claims.set c .ppu b).cartCpu = c.cartCpu := rfl
@[simp] theorem Claims.set_ppu_cartPpu (c : Claims) (b : Bool) : (Claims.set c .ppu b).cartPpu = c.cartPpu := rfl
@[simp] theorem Claims.set_ppu_ppu (c : Claims) (b : Bool) : (Claims.set c .ppu b).ppu = b := rfl
@[simp] theorem Claims.set_ppu_workRam (c : Claims) (b : Bool) : (Claims.set c .ppu b).workRam = c.workRam := rfl
@[simp] theorem Claims.set_ppu_videoRam (c : Claims) (b : Bool) : (Claims.set c .ppu b).videoRam = c.videoRam := rfl
@[simp] theorem Claims.set_workRam_cartCpu (c : Claims) (b : Bool) : (Claims.set c .workRam b).cartCpu = c.cartCpu := rfl
@[simp] theorem Claims.set_workRam_cartPpu (c : Claims) (b : Bool) : (Claims.set c .workRam b).cartPpu = c.cartPpu := rfl
@[simp] theorem Claims.set_workRam_ppu (c : Claims) (b : Bool) : (Claims.set c .workRam b).ppu = c.ppu := rfl
@[simp] theorem Claims.set_workRam_workRam (c : Claims) (b : Bool) : (Claims.set c .workRam b).workRam = b := rfl
@[simp] theorem Claims.set_workRam_videoRam (c : Claims) (b : Bool) : (Claims.set c .workRam b).videoRam = c.videoRam := rfl
@[simp] theorem Claims.set_videoRam_cartCpu (c : Claims) (b : Bool) : (Claims.set c .videoRam b).cartCpu = c.cartCpu := rfl
@[simp] theorem Claims.set_videoRam_cartPpu (c : Claims) (b : Bool) : (Claims.set c .videoRam b).cartPpu = c.cartPpu := rfl
@[simp] theorem Claims.set_videoRam_ppu (c : Claims) (b : Bool) : (Claims.set c .videoRam b).ppu = c.ppu := rfl
@[simp] theorem Claims.set_videoRam_workRam (c : Claims) (b : Bool) : (Claims.set c .videoRam b).workRam = c.workRam := rfl
@[simp] theorem Claims.set_videoRam_videoRam (c : Claims) (b : Bool) : (Claims.set c .videoRam b).videoRam = b := rfl

theorem State.mapPpu_mapPpu (f g : Ppu → Ppu) (s : State) : (s.mapPpu f).mapPpu g = s.mapPpu (fun p => g (f p)) := rfl

@[simp] theorem finish_ok (s : State) : finish (.ok s) = .next s := rfl

@[simp] theorem finish_error (s : State) : finish (.error s) = .next s := rfl

/-- Every operation ends in a next state, abandoned or not (assumption 3). -/
theorem finish_eq (r : Halting State) : finish r = .next (endState r) := rfl

end Sys2Proof.Machine
end

