-- ==== Sys2Proof/Laws/Fabric.lean ====
section
/-!
SUPPORT. What each shared access can do, said once: the devices, `PpuRead` and `PpuWrite`, and the CPU bus.
-/
namespace Sys2Proof.Machine

/-! ## Ranges -/

theorem inRange_ppu (cfg : Config) (a : Addr) : inRange cfg .ppu a = true ↔ 0x2000 ≤ a.toNat ∧ a.toNat ≤ 0x3FFF := by
  simp [inRange, declaredRange]

theorem mapPpu_eq (c : Cart) (a : Addr) :
    mapPpu c a = if a.toNat ≤ 0x1FFF then (a.toNat, true) else (0, false) := by
  unfold mapPpu mapPpuCnrom mapPpuNrom
  cases c.mapper <;> rfl

theorem mapCpu_eq (c : Cart) (a : Addr) :
    mapCpu c a = if 0x8000 ≤ a.toNat then
      ((a &&& (if 1 < Cart.prgBanks c then 0x7FFF else 0x3FFF)).toNat, true) else (0, false) := by
  unfold mapCpu mapCpuCnrom mapCpuNrom
  cases c.mapper <;> rfl

/-! ## The PPU chain -/

/-- The cartridge answers a PPU read exactly in its window when loaded, and then from CHR (41 R161). -/
theorem cartPpuRead_eq (a : Addr) (s : State) (h : Cart.chrInBounds s.cart) :
    cartPpuRead a s =
      .ok (if s.cart.loaded = true ∧ a.toNat ≤ 0x1FFF then (ChrStore.byte? s.cart.chr a.toNat).getD 0 else 0,
        s.setClaim .cartPpu (s.cart.loaded && decide (a.toNat ≤ 0x1FFF))) := by
  unfold cartPpuRead
  rw [mapPpu_eq]
  by_cases hl : s.cart.loaded = true
  · by_cases ha : a.toNat ≤ 0x1FFF
    · have hb := h hl a.toNat (by omega)
      obtain ⟨b, hb⟩ := Option.isSome_iff_exists.1 hb
      simp [hl, ha, hb]
    · simp [hl, ha, declineRead]
  · simp [hl, declineRead]

/-- `PpuRead` with CHR in bounds: the byte is `ppuPeek`, and only the claim flags of the PPU chain change (42 R196). -/
theorem ppuRead_eq (a : Addr) (s : State) (h : Cart.chrInBounds s.cart) :
    ppuRead a s = .ok (s.ppuPeek a, { s with claimed := s.claimsAfterPpu a }) := by
  unfold ppuRead State.ppuPeek State.claimsAfterPpu
  simp only
  generalize a &&& 0x3FFF = a
  split
  · rfl
  · simp only [chainRead, ppuChain, clearClaims, consultRead, memoryDeviceRead]
    rw [cartPpuRead_eq _ _ (by simpa using h)]
    simp only [State.setClaim_cart, State.setClaim_claimed]
    by_cases hc : s.cart.loaded = true ∧ a.toNat ≤ 0x1FFF
    · simp [State.ppuResponder, hc, State.setClaim, Claims.ppuSide, Claims.set, Claims.get]
    · by_cases hv : inRange s.config .videoRam a = true
      · have hb : (s.cart.loaded && decide (a.toNat ≤ 0x1FFF)) = false := by
          rw [Bool.and_eq_false_iff]
          by_cases hl : s.cart.loaded = true
          · exact .inr (decide_eq_false fun h => hc ⟨hl, h⟩)
          · exact .inl (Bool.eq_false_iff.2 hl)
        simp [State.ppuResponder, hc, hb, hv, videoRamRead, State.setClaim, Claims.ppuSide, Claims.set, Claims.get]
      · have hb : (s.cart.loaded && decide (a.toNat ≤ 0x1FFF)) = false := by
          rw [Bool.and_eq_false_iff]
          by_cases hl : s.cart.loaded = true
          · exact .inr (decide_eq_false fun h => hc ⟨hl, h⟩)
          · exact .inl (Bool.eq_false_iff.2 hl)
        simp [State.ppuResponder, hc, hb, hv, videoRamRead, declineRead, State.setClaim, Claims.ppuSide, Claims.set,
          Claims.get]

/-- `PpuRead` in any state: claim flags, and a fault mark where CHR is out of bounds, are all it can change. -/
theorem ppuRead_cases (a : Addr) (s : State) :
    (∃ b c, ppuRead a s = .ok (b, { s with claimed := c }) ∧ c = s.claimsAfterPpu a) ∨
    (∃ c f, ppuRead a s = .error { s with claimed := c, fault := some f } ∧
      c = Claims.ppuSide s.claimed (some .cartPpu)) := by
  unfold ppuRead State.claimsAfterPpu
  simp only
  generalize a &&& 0x3FFF = a
  split
  · exact .inl ⟨_, s.claimed, rfl, rfl⟩
  · simp only [chainRead, ppuChain, clearClaims, consultRead, memoryDeviceRead, cartPpuRead, mapPpu_eq, videoRamRead,
      declineRead, State.setClaim_cart, State.ppuResponder]
    by_cases hl : s.cart.loaded = true
    · by_cases ha : a.toNat ≤ 0x1FFF
      · cases hb : ChrStore.byte? s.cart.chr a.toNat with
        | some b =>
          left
          exact ⟨b, Claims.ppuSide s.claimed (some .cartPpu),
            by simp [hl, ha, hb, State.setClaim, Claims.set, Claims.get, Claims.ppuSide], by simp [hl, ha]⟩
        | none =>
          right
          exact ⟨Claims.ppuSide s.claimed (some .cartPpu), .mapperOffsetOutOfBounds a a.toNat,
            by simp [hl, ha, hb, State.setClaim, Claims.set, Claims.ppuSide, raiseFault], rfl⟩
      · left
        by_cases hv : inRange s.config .videoRam a = true
        · exact ⟨_, Claims.ppuSide s.claimed (some .videoRam),
            by simp [hl, ha, hv, State.setClaim, Claims.set, Claims.get, Claims.ppuSide]; rfl, by simp [ha, hv]⟩
        · exact ⟨_, Claims.ppuSide s.claimed none,
            by simp [hl, ha, hv, State.setClaim, Claims.set, Claims.get, Claims.ppuSide]; rfl, by simp [ha, hv]⟩
    · left
      by_cases hv : inRange s.config .videoRam a = true
      · exact ⟨_, Claims.ppuSide s.claimed (some .videoRam),
          by simp [hl, hv, State.setClaim, Claims.set, Claims.get, Claims.ppuSide]; rfl, by simp [hl, hv]⟩
      · exact ⟨_, Claims.ppuSide s.claimed none,
          by simp [hl, hv, State.setClaim, Claims.set, Claims.get, Claims.ppuSide]; rfl, by simp [hl, hv]⟩

/-- `PpuWrite` in any state: one of palette RAM, CHR and VideoRam by address, and the claim flags (42 R197). -/
theorem ppuWrite_eq (a : Addr) (v : Byte) (s : State) : ppuWrite a v s = s.ppuStore a v := by
  unfold State.ppuStore
  unfold ppuWrite
  simp only
  generalize a &&& 0x3FFF = a
  split
  · rfl
  · simp only [chainWrite, ppuChain, clearClaims, consultWrite, memoryDeviceWrite, cartPpuWrite, mapPpu_eq, videoRamWrite,
      State.setClaim_cart, State.setClaim_claimed, State.setClaim_config, State.ppuResponder]
    by_cases hl : s.cart.loaded = true
    · by_cases ha : a.toNat ≤ 0x1FFF
      · simp [hl, ha, State.setClaim, Claims.set, Claims.get, Claims.ppuSide]
      · by_cases hv : inRange s.config .videoRam a = true
        · simp [hl, ha, hv, State.setClaim, Claims.set, Claims.get, Claims.ppuSide]
        · simp [hl, ha, hv, State.setClaim, Claims.set, Claims.get, Claims.ppuSide]
    · by_cases hv : inRange s.config .videoRam a = true
      · simp [hl, hv, State.setClaim, Claims.set, Claims.get, Claims.ppuSide]
      · simp [hl, hv, State.setClaim, Claims.set, Claims.get, Claims.ppuSide]

/-! ## The CPU chain -/

/-- A register read leaves the PPU's own CPU-chain flag alone. -/
theorem readRegister_keeps_ppu_claim {r : Nat} {s : State} {b : Byte} {s' : State}
    (h : readRegister r s = .ok (b, s')) : s'.claimed.ppu = s.claimed.ppu := by
  unfold readRegister at h
  split at h
  · cases h; rfl
  · cases h; rfl
  · unfold readData at h
    simp only at h
    rcases ppuRead_cases (Loopy.ppuAddress s.ppu.v) s with ⟨b', c, hr, hc⟩ | ⟨c, f, hr, -⟩
    · rw [hr] at h
      have hp : c.ppu = s.claimed.ppu := by
        rw [hc]; unfold State.claimsAfterPpu; simp only; split <;> rfl
      simp only at h
      split at h <;> · cases h; exact hp
    · rw [hr] at h
      cases h
  · cases h; rfl

/-- Outside its window the cartridge declines a CPU read. -/
theorem cartCpuRead_below (a : Addr) (s : State) (h : a.toNat < 0x8000) :
    cartCpuRead a s = .ok (0, s.setClaim .cartCpu false) := by
  unfold cartCpuRead
  rw [mapCpu_eq]
  have : ¬ 0x8000 ≤ a.toNat := by omega
  simp [this, declineRead]

/-- A CPU read of the register window is the read of the register selected (42 R180). -/
theorem cpuBusRead_register (a : Addr) (s : State) (hlo : 0x2000 ≤ a.toNat) (hhi : a.toNat ≤ 0x3FFF) :
    cpuBusRead a s = readRegister (regIndex a) s.ppuClaims := by
  have hclear : ((clearClaims cpuChain s).setClaim .cartCpu false).setClaim .ppu true = s.ppuClaims := rfl
  have hin : ∀ cfg, inRange cfg .ppu a = true := fun cfg => (inRange_ppu cfg a).2 ⟨hlo, hhi⟩
  unfold cpuBusRead chainRead
  rw [cpuChain]
  simp only [consultRead, deviceRead, memoryDeviceRead]
  rw [cartCpuRead_below _ _ (by omega)]
  simp only [ppuDeviceRead, hin, if_true]
  have h0 : Claims.get ((clearClaims [.cartCpu, .ppu, .workRam] s).setClaim .cartCpu false).claimed .cartCpu = false := rfl
  rw [h0]
  have hcl : ((clearClaims [.cartCpu, .ppu, .workRam] s).setClaim .cartCpu false).setClaim .ppu true = s.ppuClaims := hclear
  rw [hcl]
  simp only [Bool.false_eq_true, if_false]
  cases hr : readRegister (regIndex a) s.ppuClaims with
  | error s' => rfl
  | ok p =>
    obtain ⟨b, s'⟩ := p
    have : s'.claimed.ppu = true := by rw [readRegister_keeps_ppu_claim hr]; rfl
    simp [Claims.get, this]

/-- A CPU read outside the register window: PRG, WorkRam or open bus (20 R61). -/
theorem cpuBusRead_memory (a : Addr) (s : State) (h : a.toNat < 0x2000 ∨ 0x3FFF < a.toNat) :
    cpuBusRead a s =
      match s.cpuResponder a with
      | some .cartCpu =>
        match s.cart.prg[(mapCpu s.cart a).1]? with
        | some b => .ok (b, { s with claimed := Claims.cpu s.claimed (some .cartCpu) })
        | none => .error { s with
            claimed := Claims.cpu s.claimed (some .cartCpu)
            fault := some (.mapperOffsetOutOfBounds a (mapCpu s.cart a).1) }
      | some .workRam =>
        .ok (storeByte .wram s.wram (workRamIndex s.config a), { s with claimed := Claims.cpu s.claimed (some .workRam) })
      | _ => .ok (0, { s with claimed := Claims.cpu s.claimed none }) := by
  have hnp : ∀ cfg, inRange cfg .ppu a = false := fun cfg => by
    rw [Bool.eq_false_iff, ne_eq, inRange_ppu]; omega
  simp only [cpuBusRead, chainRead, cpuChain, clearClaims, consultRead, deviceRead, memoryDeviceRead, cartCpuRead, mapCpu_eq,
    workRamRead, ppuDeviceRead, declineRead, hnp, State.setClaim_cart, State.cpuResponder]
  by_cases hl : s.cart.loaded = true
  · by_cases ha : 0x8000 ≤ a.toNat
    · generalize (a &&& (if 1 < Cart.prgBanks s.cart then 0x7FFF else 0x3FFF)).toNat = off
      cases hb : s.cart.prg[off]? with
      | some b => simp [hl, ha, hb, State.setClaim, Claims.set, Claims.get, Claims.cpu]
      | none => simp [hl, ha, hb, State.setClaim, Claims.set, Claims.cpu, raiseFault]
    · by_cases hv : inRange s.config .workRam a = true
      · simp [hl, ha, hv, State.setClaim, Claims.set, Claims.get, Claims.cpu]
      · simp [hl, ha, hv, State.setClaim, Claims.set, Claims.get, Claims.cpu]
  · by_cases hv : inRange s.config .workRam a = true
    · simp [hl, hv, State.setClaim, Claims.set, Claims.get, Claims.cpu]
    · simp [hl, hv, State.setClaim, Claims.set, Claims.get, Claims.cpu]

theorem consultWrite_claimed {write : DeviceId → Addr → Byte → State → State} {a : Addr} {v : Byte} {d : DeviceId}
    {ds : List DeviceId} {s : State} (h : Claims.get (write d a v s).claimed d = true) :
    consultWrite write a v (d :: ds) s = write d a v s := by
  simp [consultWrite, h]

theorem consultWrite_declined {write : DeviceId → Addr → Byte → State → State} {a : Addr} {v : Byte} {d : DeviceId}
    {ds : List DeviceId} {s : State} (h : Claims.get (write d a v s).claimed d = false) :
    consultWrite write a v (d :: ds) s = consultWrite write a v ds (write d a v s) := by
  simp [consultWrite, h]

/-- A register write leaves the PPU's own CPU-chain flag alone. -/
theorem writeRegister_keeps_ppu_claim (r : Nat) (d : Byte) (s : State) :
    (writeRegister r d s).claimed.ppu = s.claimed.ppu := by
  unfold writeRegister
  split <;> try rfl
  unfold writeData
  rw [State.mapPpu_claimed, ppuWrite_eq]
  unfold State.ppuStore
  simp only
  split
  · rfl
  · split <;> rfl

/-- A CPU write to the register window is the write of the register selected (42 R180). -/
theorem cpuBusWrite_register (a : Addr) (d : Byte) (s : State) (hlo : 0x2000 ≤ a.toNat) (hhi : a.toNat ≤ 0x3FFF) :
    cpuBusWrite a d s = writeRegister (regIndex a) d s.ppuClaims := by
  have hin : ∀ cfg, inRange cfg .ppu a = true := fun cfg => (inRange_ppu cfg a).2 ⟨hlo, hhi⟩
  have hcart : deviceWrite .cartCpu a d (clearClaims cpuChain s) = (clearClaims cpuChain s).setClaim .cartCpu false := by
    simp only [deviceWrite, memoryDeviceWrite, cartCpuWrite, mapCpu_eq]
    have : ¬ 0x8000 ≤ a.toNat := by omega
    simp [this]
  have hppu : deviceWrite .ppu a d ((clearClaims cpuChain s).setClaim .cartCpu false) =
      writeRegister (regIndex a) d s.ppuClaims := by
    simp only [deviceWrite, ppuDeviceWrite, hin, if_true]
    rfl
  have hclaim : Claims.get (writeRegister (regIndex a) d s.ppuClaims).claimed .ppu = true := by
    rw [Claims.get_ppu, writeRegister_keeps_ppu_claim]; rfl
  unfold cpuBusWrite chainWrite
  rw [show cpuChain = .cartCpu :: [.ppu, .workRam] from rfl, consultWrite_declined, ← cpuChain, hcart, consultWrite_claimed,
    hppu]
  · rw [hppu, hclaim]
  · rw [← cpuChain, hcart]; rfl

/-- A CPU write outside the register window: WorkRam stores it, PRG discards it, open bus drops it (20 R61). -/
theorem cpuBusWrite_memory (a : Addr) (d : Byte) (s : State) (h : a.toNat < 0x2000 ∨ 0x3FFF < a.toNat) :
    cpuBusWrite a d s =
      match s.cpuResponder a with
      | some .workRam =>
        { s with
          claimed := Claims.cpu s.claimed (some .workRam)
          wram := Memory.put s.wram (workRamIndex s.config a) d }
      | r => { s with claimed := Claims.cpu s.claimed r } := by
  have hnp : ∀ cfg, inRange cfg .ppu a = false := fun cfg => by
    rw [Bool.eq_false_iff, ne_eq, inRange_ppu]; omega
  simp only [cpuBusWrite, chainWrite, cpuChain, clearClaims, consultWrite, deviceWrite, memoryDeviceWrite, cartCpuWrite,
    mapCpu_eq, workRamWrite, ppuDeviceWrite, hnp, State.setClaim_cart, State.setClaim_config, State.cpuResponder]
  by_cases hl : s.cart.loaded = true
  · by_cases ha : 0x8000 ≤ a.toNat
    · simp [hl, ha, State.setClaim, Claims.set, Claims.get, Claims.cpu]
    · by_cases hv : inRange s.config .workRam a = true
      · simp [hl, ha, hv, State.setClaim, Claims.set, Claims.get, Claims.cpu]
      · simp [hl, ha, hv, State.setClaim, Claims.set, Claims.get, Claims.cpu]
  · by_cases hv : inRange s.config .workRam a = true
    · simp [hl, hv, State.setClaim, Claims.set, Claims.get, Claims.cpu]
    · simp [hl, hv, State.setClaim, Claims.set, Claims.get, Claims.cpu]

end Sys2Proof.Machine
end

