-- ==== Sys2Proof/Laws/Render.lean ====
section
/-!
SUPPORT. One PPU clock as a function of the state, said once: with CHR in bounds a clock never faults, it changes the PPU to
`dotPpu` and the claim flags of the PPU chain, and nothing else (spec 43 R260).
-/
namespace Sys2Proof.Machine

/-- `s` with another PPU and other claim flags of the PPU chain. -/
def State.withPpuSide (s : State) (cartPpu videoRam : Bool) (p : Ppu) : State :=
  { s with claimed := { s.claimed with cartPpu := cartPpu, videoRam := videoRam }, ppu := p }

section
variable (s : State) (x y x' y' : Bool) (p q : Ppu)

@[simp] theorem State.withPpuSide_ppu : (s.withPpuSide x y p).ppu = p := rfl
@[simp] theorem State.withPpuSide_cart : (s.withPpuSide x y p).cart = s.cart := rfl
@[simp] theorem State.withPpuSide_wram : (s.withPpuSide x y p).wram = s.wram := rfl
@[simp] theorem State.withPpuSide_vram : (s.withPpuSide x y p).vram = s.vram := rfl
@[simp] theorem State.withPpuSide_config : (s.withPpuSide x y p).config = s.config := rfl
@[simp] theorem State.withPpuSide_env : (s.withPpuSide x y p).env = s.env := rfl
@[simp] theorem State.withPpuSide_running : (s.withPpuSide x y p).running = s.running := rfl
@[simp] theorem State.withPpuSide_fault : (s.withPpuSide x y p).fault = s.fault := rfl
@[simp] theorem State.withPpuSide_refused : (s.withPpuSide x y p).refused = s.refused := rfl

@[simp] theorem State.withPpuSide_withPpuSide :
    (s.withPpuSide x y p).withPpuSide x' y' q = s.withPpuSide x' y' q := rfl

theorem State.mapPpu_withPpuSide (f : Ppu → Ppu) : (s.withPpuSide x y p).mapPpu f = s.withPpuSide x y (f p) := rfl

theorem State.eq_withPpuSide : s = s.withPpuSide s.claimed.cartPpu s.claimed.videoRam s.ppu := rfl

/-- A PPU-space byte depends on the PPU only through palette RAM and the greyscale bit. -/
theorem State.ppuPeek_withPpuSide (a : Addr) (hpal : p.pal = s.ppu.pal) (hmask : p.mask = s.ppu.mask) :
    (s.withPpuSide x y p).ppuPeek a = s.ppuPeek a := by
  simp only [State.ppuPeek, State.ppuResponder, Ppu.palRead, Ppu.greyscale, withPpuSide_ppu, withPpuSide_cart,
    withPpuSide_vram, withPpuSide_config, hpal, hmask]
  rfl

end

/-- `PpuRead` in the form the rendering fetches use. -/
theorem ppuRead_withPpuSide (s : State) (x y : Bool) (p : Ppu) (a : Addr) (h : Cart.chrInBounds s.cart)
    (hpal : p.pal = s.ppu.pal) (hmask : p.mask = s.ppu.mask) :
    ∃ x' y', ppuRead a (s.withPpuSide x y p) = .ok (s.ppuPeek a, s.withPpuSide x' y' p) := by
  rw [ppuRead_eq _ _ (by simpa using h), State.ppuPeek_withPpuSide s x y p a hpal hmask]
  simp only [State.claimsAfterPpu]
  split
  · exact ⟨x, y, rfl⟩
  · exact ⟨_, _, rfl⟩

/-! ## The parts of a dot as functions of the PPU -/

/-- The fetch step of a window cycle, reading memory as it stands in `s` (43 R227). -/
def State.fetchPpu (s : State) (c : Nat) (p : Ppu) : Ppu :=
  match (c - 1) % 8 with
  | 0 => { p.loadBgShifters with bgNextTileId := s.ppuPeek (nametableAddress p.v) }
  | 2 => { p with bgNextAttr := attributeBits p.v (s.ppuPeek (attributeAddress p.v)) }
  | 4 => { p with bgNextLo := s.ppuPeek p.bgPatternAddr }
  | 6 => { p with bgNextHi := s.ppuPeek (p.bgPatternAddr + 8) }
  | 7 => p.incScrollX
  | _ => p

/-- A dot of the fetch window (43 R224). -/
def State.windowPpu (s : State) (c : Nat) (p : Ppu) : Ppu :=
  if inFetchWindow c then s.fetchPpu c (p.shiftBg.shiftSprites c) else p

/-- The fetch of slot `i` (43 R249). -/
def State.spritePpu (s : State) (scanline : Int) (i : Nat) (p : Ppu) : Ppu :=
  let addr := spritePatternAddress p scanline (p.slot i)
  p.loadSprite i (s.ppuPeek addr) (s.ppuPeek (addr + 8))

/-- The fetches of `n` slots from slot `i`. -/
def State.spritesPpu (s : State) (scanline : Int) : Nat → Nat → Ppu → Ppu
  | _, 0, p => p
  | i, n + 1, p => s.spritesPpu scanline (i + 1) n (s.spritePpu scanline i p)

/-- The rendering events of a dot (43 R260). -/
def State.renderPpu (s : State) (scanline : Int) (c : Nat) (p : Ppu) : Ppu :=
  let p1 := s.windowPpu c (p.when (decide (scanline = -1) && c == 1) Ppu.preRenderClear)
  let p2 := p1.lineEndEvents scanline c
  let p3 := if c = 340 ∧ 0 ≤ scanline then s.spritesPpu scanline 0 p2.spriteCount p2 else p2
  p3.when (decide (scanline = -1) && (decide (280 ≤ c) && decide (c ≤ 304))) Ppu.transferY

/-- The PPU when composition is reached: after every event of the dot but composition and the advance (43 R260). -/
def State.beforePixel (s : State) : Ppu :=
  let p := s.ppu.clearFrameComplete
  let p1 := if -1 ≤ s.ppu.scanline ∧ s.ppu.scanline ≤ 239 then s.renderPpu s.ppu.scanline s.ppu.cycle p else p
  p1.when (decide (s.ppu.scanline = 241) && s.ppu.cycle == 1) Ppu.vblankStart

/-- The PPU after one clock. -/
def State.dotPpu (s : State) : Ppu := s.beforePixel.composePixel.advance

/-! ## The parts do what the functions say -/

/-- The fields no rendering event changes and every fetch depends on. -/
structure Ppu.SameView (p q : Ppu) : Prop where
  pal : q.pal = p.pal
  mask : q.mask = p.mask

theorem fetchStep_eq (s : State) (x y : Bool) (p : Ppu) (c : Nat) (h : Cart.chrInBounds s.cart)
    (hp : Ppu.SameView s.ppu p) :
    ∃ x' y', fetchStep c (s.withPpuSide x y p) = .ok (s.withPpuSide x' y' (s.fetchPpu c p)) := by
  unfold fetchStep State.fetchPpu
  generalize (c - 1) % 8 = k
  match k with
  | 0 =>
    obtain ⟨x', y', hr⟩ := ppuRead_withPpuSide s x y p.loadBgShifters (nametableAddress p.v) h hp.pal hp.mask
    refine ⟨x', y', ?_⟩
    simp only [State.mapPpu_withPpuSide, fetchNametable, State.withPpuSide_ppu]
    rw [show p.loadBgShifters.v = p.v from rfl, hr]
    rfl
  | 2 =>
    obtain ⟨x', y', hr⟩ := ppuRead_withPpuSide s x y p (attributeAddress p.v) h hp.pal hp.mask
    exact ⟨x', y', by simp only [fetchAttribute, State.withPpuSide_ppu, hr]; rfl⟩
  | 4 =>
    obtain ⟨x', y', hr⟩ := ppuRead_withPpuSide s x y p p.bgPatternAddr h hp.pal hp.mask
    exact ⟨x', y', by simp only [fetchPatternLow, State.withPpuSide_ppu, hr]; rfl⟩
  | 6 =>
    obtain ⟨x', y', hr⟩ := ppuRead_withPpuSide s x y p (p.bgPatternAddr + 8) h hp.pal hp.mask
    exact ⟨x', y', by simp only [fetchPatternHigh, State.withPpuSide_ppu, hr]; rfl⟩
  | 7 => exact ⟨x, y, rfl⟩
  | 1 => exact ⟨x, y, rfl⟩
  | 3 => exact ⟨x, y, rfl⟩
  | 5 => exact ⟨x, y, rfl⟩
  | n + 8 => exact ⟨x, y, rfl⟩

theorem shiftBg_sameView (p : Ppu) : Ppu.SameView p p.shiftBg := by
  unfold Ppu.shiftBg; split <;> exact ⟨rfl, rfl⟩

theorem shiftSprites_sameView (c : Nat) (p : Ppu) : Ppu.SameView p (p.shiftSprites c) := by
  unfold Ppu.shiftSprites; split <;> exact ⟨rfl, rfl⟩

theorem Ppu.SameView.trans {p q r : Ppu} (h : Ppu.SameView p q) (h' : Ppu.SameView q r) : Ppu.SameView p r :=
  ⟨h'.pal.trans h.pal, h'.mask.trans h.mask⟩

theorem Ppu.SameView.when {p q : Ppu} {f : Ppu → Ppu} (b : Bool) (h : Ppu.SameView p q)
    (hf : ∀ r, Ppu.SameView r (f r)) : Ppu.SameView p (q.when b f) := by
  unfold Ppu.when; split
  · exact h.trans (hf q)
  · exact h

theorem incScrollX_sameView (p : Ppu) : Ppu.SameView p p.incScrollX := by
  unfold Ppu.incScrollX; split <;> exact ⟨rfl, rfl⟩

theorem incScrollY_sameView (p : Ppu) : Ppu.SameView p p.incScrollY := by
  unfold Ppu.incScrollY; split <;> exact ⟨rfl, rfl⟩

theorem transferX_sameView (p : Ppu) : Ppu.SameView p p.transferX := by
  unfold Ppu.transferX; split <;> exact ⟨rfl, rfl⟩

theorem fetchPpu_sameView (s : State) (c : Nat) (p : Ppu) : Ppu.SameView p (s.fetchPpu c p) := by
  unfold State.fetchPpu
  split
  · exact ⟨rfl, rfl⟩
  · exact ⟨rfl, rfl⟩
  · exact ⟨rfl, rfl⟩
  · exact ⟨rfl, rfl⟩
  · exact incScrollX_sameView p
  · exact ⟨rfl, rfl⟩

theorem windowPpu_sameView (s : State) (c : Nat) (p : Ppu) : Ppu.SameView p (s.windowPpu c p) := by
  unfold State.windowPpu; split
  · exact ((shiftBg_sameView p).trans (shiftSprites_sameView c _)).trans (fetchPpu_sameView s c _)
  · exact ⟨rfl, rfl⟩

theorem lineEndEvents_sameView (scanline : Int) (c : Nat) (p : Ppu) : Ppu.SameView p (p.lineEndEvents scanline c) := by
  unfold Ppu.lineEndEvents
  refine Ppu.SameView.when _ (Ppu.SameView.when _ (Ppu.SameView.when _ ⟨rfl, rfl⟩ incScrollY_sameView) ?_) ?_
  · intro r; exact Ppu.SameView.trans (q := r.loadBgShifters) ⟨rfl, rfl⟩ (transferX_sameView _)
  · intro r; exact ⟨rfl, rfl⟩

theorem windowEvents_eq (s : State) (x y : Bool) (p : Ppu) (c : Nat) (h : Cart.chrInBounds s.cart)
    (hp : Ppu.SameView s.ppu p) :
    ∃ x' y', windowEvents c (s.withPpuSide x y p) = .ok (s.withPpuSide x' y' (s.windowPpu c p)) := by
  unfold windowEvents State.windowPpu
  split
  · exact fetchStep_eq s x y _ c h (hp.trans ((shiftBg_sameView p).trans (shiftSprites_sameView c _)))
  · exact ⟨x, y, rfl⟩

theorem fetchSprite_eq (s : State) (x y : Bool) (p : Ppu) (scanline : Int) (i : Nat) (h : Cart.chrInBounds s.cart)
    (hp : Ppu.SameView s.ppu p) :
    ∃ x' y', fetchSprite scanline i (s.withPpuSide x y p) = .ok (s.withPpuSide x' y' (s.spritePpu scanline i p)) := by
  unfold fetchSprite State.spritePpu
  simp only [State.withPpuSide_ppu]
  obtain ⟨x1, y1, h1⟩ := ppuRead_withPpuSide s x y p (spritePatternAddress p scanline (p.slot i)) h hp.pal hp.mask
  obtain ⟨x2, y2, h2⟩ := ppuRead_withPpuSide s x1 y1 p (spritePatternAddress p scanline (p.slot i) + 8) h hp.pal hp.mask
  exact ⟨x2, y2, by simp only [h1, h2]; rfl⟩

theorem fetchSpritesFrom_eq (s : State) (scanline : Int) (n : Nat) (h : Cart.chrInBounds s.cart) :
    ∀ (x y : Bool) (p : Ppu) (i : Nat), Ppu.SameView s.ppu p →
      ∃ x' y', fetchSpritesFrom scanline i n (s.withPpuSide x y p) =
        .ok (s.withPpuSide x' y' (s.spritesPpu scanline i n p)) := by
  induction n with
  | zero => intro x y p i _; exact ⟨x, y, rfl⟩
  | succ n ih =>
    intro x y p i hp
    obtain ⟨x1, y1, h1⟩ := fetchSprite_eq s x y p scanline i h hp
    obtain ⟨x2, y2, h2⟩ := ih x1 y1 (s.spritePpu scanline i p) (i + 1) (hp.trans ⟨rfl, rfl⟩)
    exact ⟨x2, y2, by simp only [fetchSpritesFrom, State.spritesPpu, h1, h2]⟩

theorem renderEvents_eq (s : State) (x y : Bool) (p : Ppu) (scanline : Int) (c : Nat) (h : Cart.chrInBounds s.cart)
    (hp : Ppu.SameView s.ppu p) :
    ∃ x' y', renderEvents scanline c (s.withPpuSide x y p) =
      .ok (s.withPpuSide x' y' (s.renderPpu scanline c p)) := by
  have hp0 : Ppu.SameView s.ppu (p.when (decide (scanline = -1) && c == 1) Ppu.preRenderClear) :=
    hp.when _ (fun _ => ⟨rfl, rfl⟩)
  obtain ⟨x1, y1, h1⟩ := windowEvents_eq s x y _ c h hp0
  have hp2 := (hp0.trans (windowPpu_sameView s c _)).trans (lineEndEvents_sameView scanline c _)
  unfold renderEvents State.renderPpu
  by_cases hc : c = 340 ∧ 0 ≤ scanline
  · obtain ⟨x2, y2, h2⟩ := fetchSpritesFrom_eq s scanline (Ppu.lineEndEvents scanline c
        (s.windowPpu c (p.when (decide (scanline = -1) && c == 1) Ppu.preRenderClear))).spriteCount h x1 y1 _ 0 hp2
    refine ⟨x2, y2, ?_⟩
    simp only [State.mapPpu_withPpuSide, h1, if_pos hc, fetchSprites, State.withPpuSide_ppu, h2]
  · refine ⟨x1, y1, ?_⟩
    simp only [State.mapPpu_withPpuSide, h1, if_neg hc]

/-- One clock, in full: it never faults with CHR in bounds, and is `dotPpu` on the PPU (43 R260). -/
theorem clock_eq (s : State) (h : Cart.chrInBounds s.cart) : ∃ x y, clock s = .ok (s.withPpuSide x y s.dotPpu) := by
  unfold clock State.dotPpu State.beforePixel
  simp only
  by_cases hs : -1 ≤ s.ppu.scanline ∧ s.ppu.scanline ≤ 239
  · obtain ⟨x, y, hr⟩ := renderEvents_eq s s.claimed.cartPpu s.claimed.videoRam s.ppu.clearFrameComplete s.ppu.scanline
      s.ppu.cycle h ⟨rfl, rfl⟩
    refine ⟨x, y, ?_⟩
    rw [if_pos hs, if_pos hs, show s.mapPpu Ppu.clearFrameComplete =
      s.withPpuSide s.claimed.cartPpu s.claimed.videoRam s.ppu.clearFrameComplete from rfl, hr]
    rfl
  · rw [if_neg hs, if_neg hs]
    exact ⟨s.claimed.cartPpu, s.claimed.videoRam, rfl⟩

end Sys2Proof.Machine
end

