-- ==== Sys2Proof/Laws/ClockFrame.lean ====
section
/-!
SUPPORT. What no PPU clock changes, in any state and on the faulting path too (spec 43 R220, 20 R77): only the PPU's
pipeline, the claim flags and the fault mark can differ after it, and the NMI request as the vblank dot raises it (43 R255).
-/
namespace Sys2Proof.Machine

/-- `t` differs from `s` at most in claim flags, the fault mark and the PPU's pipeline, timer, flags and frame buffer. -/
structure State.SameOutside (s t : State) : Prop where
  wram : t.wram = s.wram
  vram : t.vram = s.vram
  cart : t.cart = s.cart
  running : t.running = s.running
  refused : t.refused = s.refused
  config : t.config = s.config
  env : t.env = s.env
  ctrl : t.ppu.ctrl = s.ppu.ctrl
  mask : t.ppu.mask = s.ppu.mask
  tReg : t.ppu.t = s.ppu.t
  fineX : t.ppu.fineX = s.ppu.fineX
  w : t.ppu.w = s.ppu.w
  oamAddr : t.ppu.oamAddr = s.ppu.oamAddr
  oam : t.ppu.oam = s.ppu.oam
  pal : t.ppu.pal = s.ppu.pal
  dataBuf : t.ppu.dataBuf = s.ppu.dataBuf
  nmiPending : t.ppu.nmiPending = s.ppu.nmiPending

theorem State.SameOutside.refl (s : State) : s.SameOutside s := by constructor <;> rfl

theorem State.SameOutside.trans {s t u : State} (h : s.SameOutside t) (h' : t.SameOutside u) : s.SameOutside u :=
  ⟨h'.wram.trans h.wram, h'.vram.trans h.vram, h'.cart.trans h.cart, h'.running.trans h.running,
    h'.refused.trans h.refused, h'.config.trans h.config, h'.env.trans h.env, h'.ctrl.trans h.ctrl, h'.mask.trans h.mask,
    h'.tReg.trans h.tReg, h'.fineX.trans h.fineX, h'.w.trans h.w, h'.oamAddr.trans h.oamAddr, h'.oam.trans h.oam,
    h'.pal.trans h.pal, h'.dataBuf.trans h.dataBuf, h'.nmiPending.trans h.nmiPending⟩

/-- A PPU update that keeps what the CPU writes, and the NMI request. -/
structure Ppu.KeepsRegisters (f : Ppu → Ppu) : Prop where
  ctrl : ∀ p, (f p).ctrl = p.ctrl
  mask : ∀ p, (f p).mask = p.mask
  tReg : ∀ p, (f p).t = p.t
  fineX : ∀ p, (f p).fineX = p.fineX
  w : ∀ p, (f p).w = p.w
  oamAddr : ∀ p, (f p).oamAddr = p.oamAddr
  oam : ∀ p, (f p).oam = p.oam
  pal : ∀ p, (f p).pal = p.pal
  dataBuf : ∀ p, (f p).dataBuf = p.dataBuf
  nmiPending : ∀ p, (f p).nmiPending = p.nmiPending

theorem Ppu.KeepsRegisters.mapPpu {f : Ppu → Ppu} (h : Ppu.KeepsRegisters f) (s : State) :
    s.SameOutside (s.mapPpu f) :=
  ⟨rfl, rfl, rfl, rfl, rfl, rfl, rfl, h.ctrl _, h.mask _, h.tReg _, h.fineX _, h.w _, h.oamAddr _, h.oam _, h.pal _,
    h.dataBuf _, h.nmiPending _⟩

theorem Ppu.KeepsRegisters.comp {f g : Ppu → Ppu} (hf : Ppu.KeepsRegisters f) (hg : Ppu.KeepsRegisters g) :
    Ppu.KeepsRegisters (fun p => g (f p)) :=
  ⟨fun p => (hg.ctrl _).trans (hf.ctrl p), fun p => (hg.mask _).trans (hf.mask p), fun p => (hg.tReg _).trans (hf.tReg p),
    fun p => (hg.fineX _).trans (hf.fineX p), fun p => (hg.w _).trans (hf.w p),
    fun p => (hg.oamAddr _).trans (hf.oamAddr p), fun p => (hg.oam _).trans (hf.oam p),
    fun p => (hg.pal _).trans (hf.pal p), fun p => (hg.dataBuf _).trans (hf.dataBuf p),
    fun p => (hg.nmiPending _).trans (hf.nmiPending p)⟩

theorem Ppu.KeepsRegisters.when {f : Ppu → Ppu} (b : Bool) (h : Ppu.KeepsRegisters f) :
    Ppu.KeepsRegisters (Ppu.when b f) := by
  cases b
  · constructor <;> intro p <;> rfl
  · exact h

theorem keeps_clearFrameComplete : Ppu.KeepsRegisters Ppu.clearFrameComplete := by constructor <;> intro p <;> rfl
theorem keeps_preRenderClear : Ppu.KeepsRegisters Ppu.preRenderClear := by constructor <;> intro p <;> rfl
theorem keeps_loadBgShifters : Ppu.KeepsRegisters Ppu.loadBgShifters := by constructor <;> intro p <;> rfl
theorem keeps_evaluateSprites (l : Int) : Ppu.KeepsRegisters (Ppu.evaluateSprites l) := by
  constructor <;> intro p <;> rfl
theorem keeps_loadSprite (i : Nat) (lo hi : Byte) : Ppu.KeepsRegisters (Ppu.loadSprite i lo hi) := by
  constructor <;> intro p <;> rfl
theorem keeps_setVblank (b : Bool) : Ppu.KeepsRegisters (Ppu.setVblank b) := by constructor <;> intro p <;> rfl
theorem keeps_shiftBg : Ppu.KeepsRegisters Ppu.shiftBg := by
  constructor <;> intro p <;> unfold Ppu.shiftBg <;> split <;> rfl
theorem keeps_shiftSprites (c : Nat) : Ppu.KeepsRegisters (Ppu.shiftSprites c) := by
  constructor <;> intro p <;> unfold Ppu.shiftSprites <;> split <;> rfl
theorem keeps_incScrollX : Ppu.KeepsRegisters Ppu.incScrollX := by
  constructor <;> intro p <;> unfold Ppu.incScrollX <;> split <;> rfl
theorem keeps_incScrollY : Ppu.KeepsRegisters Ppu.incScrollY := by
  constructor <;> intro p <;> unfold Ppu.incScrollY <;> split <;> rfl
theorem keeps_transferX : Ppu.KeepsRegisters Ppu.transferX := by
  constructor <;> intro p <;> unfold Ppu.transferX <;> split <;> rfl
theorem keeps_transferY : Ppu.KeepsRegisters Ppu.transferY := by
  constructor <;> intro p <;> unfold Ppu.transferY <;> split <;> rfl
theorem keeps_advance : Ppu.KeepsRegisters Ppu.advance := by
  constructor <;> intro p <;> unfold Ppu.advance <;> split <;> (try split) <;> rfl
theorem keeps_composePixel : Ppu.KeepsRegisters Ppu.composePixel := by
  constructor <;> intro p <;> unfold Ppu.composePixel <;> simp only <;> split <;> split <;> rfl

theorem keeps_lineEndEvents (l : Int) (c : Nat) : Ppu.KeepsRegisters (Ppu.lineEndEvents l c) :=
  ((keeps_incScrollY.when _).comp ((keeps_loadBgShifters.comp keeps_transferX).when _)).comp
    ((keeps_evaluateSprites l).when _)

/-- The request of the dot `(scanline, c)`, raised when it is the vblank dot (43 R255). -/
def Ppu.dotNmi (scanline : Int) (c : Nat) : Ppu → Ppu := Ppu.when (decide (scanline = 241) && c == 1) Ppu.raiseNmi

/-- The end of a dot keeps all but the request it raises. -/
theorem finishDot_sameOutside {s t : State} (h : s.SameOutside t) (l : Int) (c : Nat) :
    (s.mapPpu (Ppu.dotNmi l c)).SameOutside (t.mapPpu (Ppu.finishDot l c)) := by
  have hf := (keeps_composePixel.comp keeps_advance).mapPpu
    (t.mapPpu (Ppu.when (decide (l = 241) && c == 1) Ppu.vblankStart))
  refine State.SameOutside.trans ?_ hf
  unfold Ppu.dotNmi Ppu.when
  split
  · have hv := (keeps_setVblank true).mapPpu t
    have hu := h.trans hv
    have hn : (s.ppu.setVblank true).nmiEnable = (t.ppu.setVblank true).nmiEnable := congrArg (·.getLsbD 7) hu.ctrl.symm
    have hs : s.ppu.nmiEnable = (t.ppu.setVblank true).nmiEnable := hn
    simp only [State.mapPpu, Ppu.vblankStart, Ppu.raiseNmi, hs]
    split
    · exact ⟨hu.wram, hu.vram, hu.cart, hu.running, hu.refused, hu.config, hu.env, hu.ctrl, hu.mask, hu.tReg, hu.fineX, hu.w,
        hu.oamAddr, hu.oam, hu.pal, hu.dataBuf, rfl⟩
    · exact hu
  · exact h

/-- An operation that keeps everything outside the pipeline, abandoned or not. -/
def KeepsOutside (f : State → Halting State) : Prop := ∀ s, State.SameOutside s (endState (f s))

theorem ppuRead_sameOutside (a : Addr) (s : State) :
    (∃ b t, ppuRead a s = .ok (b, t) ∧ s.SameOutside t) ∨ (∃ t, ppuRead a s = .error t ∧ s.SameOutside t) := by
  rcases ppuRead_cases a s with ⟨b, c, h, _⟩ | ⟨c, f, h, _⟩
  · exact .inl ⟨b, _, h, by constructor <;> rfl⟩
  · exact .inr ⟨_, h, by constructor <;> rfl⟩

theorem fetchStep_keepsOutside (c : Nat) : KeepsOutside (fetchStep c) := by
  intro s
  unfold fetchStep
  generalize (c - 1) % 8 = k
  match k with
  | 0 =>
    have hl := keeps_loadBgShifters.mapPpu s
    generalize s.mapPpu Ppu.loadBgShifters = u at hl
    simp only [fetchNametable]
    rcases ppuRead_sameOutside (nametableAddress u.ppu.v) u with ⟨b, t, h, ht⟩ | ⟨t, h, ht⟩ <;> simp only [h, endState]
    · exact hl.trans (ht.trans (Ppu.KeepsRegisters.mapPpu (by constructor <;> intro p <;> rfl) t))
    · exact hl.trans ht
  | 2 =>
    simp only [fetchAttribute]
    rcases ppuRead_sameOutside (attributeAddress s.ppu.v) s with ⟨b, t, h, ht⟩ | ⟨t, h, ht⟩ <;> simp only [h, endState]
    · exact ht.trans (Ppu.KeepsRegisters.mapPpu (by constructor <;> intro p <;> rfl) t)
    · exact ht
  | 4 =>
    simp only [fetchPatternLow]
    rcases ppuRead_sameOutside s.ppu.bgPatternAddr s with ⟨b, t, h, ht⟩ | ⟨t, h, ht⟩ <;> simp only [h, endState]
    · exact ht.trans (Ppu.KeepsRegisters.mapPpu (by constructor <;> intro p <;> rfl) t)
    · exact ht
  | 6 =>
    simp only [fetchPatternHigh]
    rcases ppuRead_sameOutside (s.ppu.bgPatternAddr + 8) s with ⟨b, t, h, ht⟩ | ⟨t, h, ht⟩ <;> simp only [h, endState]
    · exact ht.trans (Ppu.KeepsRegisters.mapPpu (by constructor <;> intro p <;> rfl) t)
    · exact ht
  | 7 => exact keeps_incScrollX.mapPpu s
  | 1 => exact .refl s
  | 3 => exact .refl s
  | 5 => exact .refl s
  | n + 8 => exact .refl s

theorem windowEvents_keepsOutside (c : Nat) : KeepsOutside (windowEvents c) := by
  intro s
  unfold windowEvents
  split
  · exact ((keeps_shiftBg.mapPpu s).trans ((keeps_shiftSprites c).mapPpu _)).trans (fetchStep_keepsOutside c _)
  · exact .refl s

theorem fetchSprite_keepsOutside (l : Int) (i : Nat) : KeepsOutside (fetchSprite l i) := by
  intro s
  unfold fetchSprite
  simp only
  generalize spritePatternAddress s.ppu l (s.ppu.slot i) = a
  rcases ppuRead_sameOutside a s with ⟨b, t, h, ht⟩ | ⟨t, h, ht⟩ <;> simp only [h]
  · rcases ppuRead_sameOutside (a + 8) t with ⟨b', u, h', hu⟩ | ⟨u, h', hu⟩ <;> simp only [h', endState]
    · exact (ht.trans hu).trans ((keeps_loadSprite i b b').mapPpu u)
    · exact ht.trans hu
  · exact ht

theorem fetchSpritesFrom_keepsOutside (l : Int) (n : Nat) : ∀ i, KeepsOutside (fetchSpritesFrom l i n) := by
  induction n with
  | zero => intro i s; exact .refl s
  | succ n ih =>
    intro i s
    have h1 := fetchSprite_keepsOutside l i s
    simp only [fetchSpritesFrom]
    cases hf : fetchSprite l i s with
    | error t => rw [hf] at h1; exact h1
    | ok t => rw [hf] at h1; exact State.SameOutside.trans h1 (ih (i + 1) t)

theorem renderEvents_keepsOutside (l : Int) (c : Nat) : KeepsOutside (renderEvents l c) := by
  intro s
  unfold renderEvents
  have h0 := (keeps_preRenderClear.when (decide (l = -1) && c == 1)).mapPpu s
  have h1 := windowEvents_keepsOutside c (s.mapPpu (Ppu.when (decide (l = -1) && c == 1) Ppu.preRenderClear))
  cases hw : windowEvents c (s.mapPpu (Ppu.when (decide (l = -1) && c == 1) Ppu.preRenderClear)) with
  | error t => rw [hw] at h1; exact h0.trans h1
  | ok t =>
    rw [hw] at h1
    have h2 : t.SameOutside (t.mapPpu (Ppu.lineEndEvents l c)) := (keeps_lineEndEvents l c).mapPpu t
    simp only
    generalize t.mapPpu (Ppu.lineEndEvents l c) = u at h2
    have h012 : s.SameOutside u := (h0.trans h1).trans h2
    by_cases hc : c = 340 ∧ 0 ≤ l
    · rw [if_pos hc]
      have h3 := fetchSpritesFrom_keepsOutside l u.ppu.spriteCount 0 u
      unfold fetchSprites
      cases hs : fetchSpritesFrom l 0 u.ppu.spriteCount u with
      | error x => rw [hs] at h3; exact h012.trans h3
      | ok x => rw [hs] at h3; exact (h012.trans h3).trans ((keeps_transferY.when _).mapPpu x)
    · rw [if_neg hc]; exact h012.trans ((keeps_transferY.when _).mapPpu u)

/-- No clock changes anything outside the pipeline but the request of its dot (43 R220, R255, 20 R77). -/
theorem clock_sameOutside (s : State) :
    (s.mapPpu (Ppu.dotNmi s.ppu.scanline s.ppu.cycle)).SameOutside (endState (clock s)) := by
  unfold clock
  have h0 := keeps_clearFrameComplete.mapPpu s
  simp only
  by_cases hs : -1 ≤ s.ppu.scanline ∧ s.ppu.scanline ≤ 239
  · rw [if_pos hs]
    have h1 := renderEvents_keepsOutside s.ppu.scanline s.ppu.cycle (s.mapPpu Ppu.clearFrameComplete)
    cases hr : renderEvents s.ppu.scanline s.ppu.cycle (s.mapPpu Ppu.clearFrameComplete) with
    | error t =>
      rw [hr] at h1
      have hd : s.mapPpu (Ppu.dotNmi s.ppu.scanline s.ppu.cycle) = s := by
        have : decide (s.ppu.scanline = 241) = false := decide_eq_false (by omega)
        simp only [Ppu.dotNmi, this]
        rfl
      rw [hd]; exact h0.trans h1
    | ok t => rw [hr] at h1; exact finishDot_sameOutside (h0.trans h1) _ _
  · rw [if_neg hs]; exact finishDot_sameOutside h0 _ _

/-- The NMI request after a clock, completed or not (43 R255). -/
theorem clock_nmiPending (s : State) :
    (endState (clock s)).ppu.nmiPending =
      (s.ppu.nmiPending || (decide (s.ppu.scanline = 241) && s.ppu.cycle == 1 && s.ppu.nmiEnable)) := by
  rw [(clock_sameOutside s).nmiPending]
  simp only [State.mapPpu, Ppu.dotNmi, Ppu.when, Ppu.raiseNmi]
  cases decide (s.ppu.scanline = 241) && s.ppu.cycle == 1 <;> cases s.ppu.nmiEnable <;> simp

end Sys2Proof.Machine
end

