-- ==== Sys2Proof/Laws/Registers.lean ====
section
/-!
SUPPORT. The register window as one lemma per direction, the numbers behind the Data port's address and advance, the Status
byte, and the frame of a PPU-space write.
-/
namespace Sys2Proof.Machine

/-- A CPU read in the register window is the read of register `a % 8` (42 R180). -/
theorem read_register {s : State} {a : Addr} {r : Nat} (hlo : 0x2000 ≤ a.toNat) (hhi : a.toNat ≤ 0x3FFF)
    (hr : a.toNat % 8 = r) :
    finish (cpuTransaction (.read a) s) = finish (replyWith (readRegister r s.ppuClaims)) := by
  rw [cpuTransaction, cpuBusRead_register a s hlo hhi, regIndex_eq, hr]

/-- A CPU write in the register window is the write of register `a % 8` (42 R180). -/
theorem write_register {s : State} {a : Addr} {d : Byte} {r : Nat} (hlo : 0x2000 ≤ a.toNat) (hhi : a.toNat ≤ 0x3FFF)
    (hr : a.toNat % 8 = r) :
    finish (cpuTransaction (.write a d) s) = .next (writeRegister r d s.ppuClaims) := by
  rw [cpuTransaction, cpuBusWrite_register a d s hlo hhi, regIndex_eq, hr]; rfl

theorem Loopy.ppuAddress_eq (v : Loopy) : Loopy.ppuAddress v = BitVec.ofNat 16 (v.toNat % 0x4000) := by
  apply BitVec.eq_of_toNat_eq
  rw [Loopy.ppuAddress, addr14_toNat]
  simp
  omega

theorem vramIncrement_eq (p : Ppu) :
    vramIncrement p.v p.incrementMode = BitVec.ofNat 15 (p.v.toNat + if p.ctrl.getLsbD 2 then 32 else 1) := by
  apply BitVec.eq_of_toNat_eq
  unfold vramIncrement Ppu.incrementMode
  split <;> simp

/-- The Status byte is the flags over the draw (42 R183). -/
theorem Ppu.statusByte_eq (p : Ppu) (low : BitVec 5) : p.statusByte low = (p.status &&& 0xE0) ||| low.setWidth 8 := by
  apply BitVec.eq_of_getLsbD_eq
  intro i hi
  show @BitVec.getLsbD (1 + 1 + 1 + 5) (BitVec.ofBool p.vblank ++ BitVec.ofBool p.spriteZeroHit ++
    BitVec.ofBool p.spriteOverflow ++ low) i = _
  simp only [BitVec.getLsbD_append, BitVec.getLsbD_ofBool, BitVec.getLsbD_or, BitVec.getLsbD_and, BitVec.getLsbD_setWidth,
    Ppu.vblank, Ppu.spriteZeroHit, Ppu.spriteOverflow]
  have : i = 0 ∨ i = 1 ∨ i = 2 ∨ i = 3 ∨ i = 4 ∨ i = 5 ∨ i = 6 ∨ i = 7 := by omega
  rcases this with h | h | h | h | h | h | h | h <;> subst h <;> simp

/-- A PPU-space write changes no byte behind another cell (20 R62-R64). -/
theorem ppuStore_peek_other (s : State) (a x : Addr) (d : Byte) (h : s.ppuCell x ≠ s.ppuCell a) :
    (s.ppuStore a d).ppuPeek x = s.ppuPeek x := by
  unfold State.ppuCell at h
  unfold State.ppuStore State.ppuPeek
  simp only at h ⊢
  generalize a &&& 0x3FFF = a at h ⊢
  generalize x &&& 0x3FFF = x at h ⊢
  by_cases ha : 0x3F00 ≤ a.toNat <;> by_cases hx : 0x3F00 ≤ x.toNat
  · simp only [if_pos ha, if_pos hx] at h ⊢
    simp only [Ppu.palRead]
    rw [storeByte_put_other _ _ _ (fun he => h (by rw [he]))]
    rfl
  · simp only [if_pos ha, if_neg hx] at h ⊢; rfl
  · simp only [if_neg ha, if_pos hx] at h ⊢
    split <;> rfl
  · simp only [if_neg ha, if_neg hx] at h ⊢
    have hsame : ∀ s' : State, s'.cart.loaded = s.cart.loaded → s'.config = s.config →
        s'.ppuResponder x = s.ppuResponder x := fun s' hl hc => by simp only [State.ppuResponder, hl, hc]
    rcases hra : s.ppuResponder a with _ | d1
    · rfl
    · cases d1 with
      | cartPpu =>
        simp only [hra] at h ⊢
        rw [hsame { s with
          claimed := Claims.ppuSide s.claimed (some .cartPpu)
          cart := { s.cart with chr := ChrStore.write s.cart.chr a.toNat d } } rfl rfl]
        rcases hrx : s.ppuResponder x with _ | d2
        · rfl
        · cases d2 with
          | cartPpu =>
            simp only [hrx] at h ⊢
            have hne : x.toNat ≠ a.toNat := fun he => h (by rw [he])
            cases s.cart.chr with
            | rom bytes => rfl
            | ram cells =>
              simp only [ChrStore.write, ChrStore.byte?, storeByte_put_other _ _ _ hne]
          | _ => rfl
      | videoRam =>
        simp only [hra] at h ⊢
        rw [hsame { s with
          claimed := Claims.ppuSide s.claimed (some .videoRam)
          vram := Memory.put s.vram (nametableOffset s.config s.cart a) d } rfl rfl]
        rcases hrx : s.ppuResponder x with _ | d2
        · rfl
        · cases d2 with
          | videoRam =>
            simp only [hrx] at h ⊢
            exact storeByte_put_other _ _ _ (fun he => h (by rw [he]))
          | _ => rfl
      | _ => rfl

end Sys2Proof.Machine
end

