-- ==== Sys2Proof/Laws/CpuClock.lean ====
section
/-!
SUPPORT. What the CPU collaborator's transactions, one or a batch, never change (spec 44 R274, 60 R304), and which of them can
return the write toggle to false (42 R195).
-/
namespace Sys2Proof.Machine

/-- `t` agrees with `s` on what no CPU transaction touches: the run toggle, the NMI request, the calls made and to be made. -/
structure State.SameControl (s t : State) : Prop where
  running : t.running = s.running
  nmiPending : t.ppu.nmiPending = s.ppu.nmiPending
  cpuCalls : t.env.cpuCalls = s.env.cpuCalls
  cpuBatches : t.env.cpuBatches = s.env.cpuBatches

theorem State.SameControl.trans {s t u : State} (h : s.SameControl t) (h' : t.SameControl u) : s.SameControl u :=
  ⟨h'.running.trans h.running, h'.nmiPending.trans h.nmiPending, h'.cpuCalls.trans h.cpuCalls,
    h'.cpuBatches.trans h.cpuBatches⟩

/-- Nothing of the control state and not the toggle. -/
abbrev State.Quiet (s t : State) : Prop := s.SameControl t ∧ t.ppu.w = s.ppu.w

theorem ppuStore_quiet (s : State) (a : Addr) (d : Byte) : s.Quiet (s.ppuStore a d) := by
  unfold State.ppuStore
  simp only
  split
  · exact ⟨⟨rfl, rfl, rfl, rfl⟩, rfl⟩
  · split <;> exact ⟨⟨rfl, rfl, rfl, rfl⟩, rfl⟩

theorem readData_quiet (s : State) : s.Quiet (endState (replyWith (readData s))) := by
  unfold readData
  simp only
  rcases ppuRead_cases (Loopy.ppuAddress s.ppu.v) s with ⟨b, c, h, _⟩ | ⟨c, f, h, _⟩ <;> simp only [h]
  · split <;> exact ⟨⟨rfl, rfl, rfl, rfl⟩, rfl⟩
  · exact ⟨⟨rfl, rfl, rfl, rfl⟩, rfl⟩

theorem readRegister_control (r : Nat) (s : State) :
    s.SameControl (endState (replyWith (readRegister r s))) ∧
      (r ≠ 2 → (endState (replyWith (readRegister r s))).ppu.w = s.ppu.w) := by
  unfold readRegister
  split
  · exact ⟨⟨rfl, rfl, rfl, rfl⟩, fun h => absurd rfl h⟩
  · exact ⟨⟨rfl, rfl, rfl, rfl⟩, fun _ => rfl⟩
  · exact ⟨(readData_quiet s).1, fun _ => (readData_quiet s).2⟩
  · exact ⟨⟨rfl, rfl, rfl, rfl⟩, fun _ => rfl⟩

theorem writeScroll_control (d : Byte) (s : State) : s.SameControl (s.mapPpu (Ppu.writeScroll d)) := by
  refine ⟨rfl, ?_, rfl, rfl⟩
  simp only [State.mapPpu, Ppu.writeScroll]
  split <;> rfl

theorem writeAddress_control (d : Byte) (s : State) : s.SameControl (s.mapPpu (Ppu.writeAddress d)) := by
  refine ⟨rfl, ?_, rfl, rfl⟩
  simp only [State.mapPpu, Ppu.writeAddress]
  split <;> rfl

theorem writeData_quiet (d : Byte) (s : State) : s.Quiet (writeData d s) := by
  unfold writeData
  rw [ppuWrite_eq]
  have h := ppuStore_quiet s (Loopy.ppuAddress s.ppu.v) d
  exact ⟨⟨h.1.running, h.1.nmiPending, h.1.cpuCalls, h.1.cpuBatches⟩, h.2⟩

theorem writeRegister_control (r : Nat) (d : Byte) (s : State) :
    s.SameControl (writeRegister r d s) ∧ (r ≠ 5 → r ≠ 6 → (writeRegister r d s).ppu.w = s.ppu.w) := by
  unfold writeRegister
  split
  · exact ⟨⟨rfl, rfl, rfl, rfl⟩, fun _ _ => rfl⟩
  · exact ⟨⟨rfl, rfl, rfl, rfl⟩, fun _ _ => rfl⟩
  · exact ⟨⟨rfl, rfl, rfl, rfl⟩, fun _ _ => rfl⟩
  · exact ⟨⟨rfl, rfl, rfl, rfl⟩, fun _ _ => rfl⟩
  · exact ⟨⟨rfl, rfl, rfl, rfl⟩, fun _ _ => rfl⟩
  · exact ⟨writeScroll_control d s, fun h => absurd rfl h⟩
  · exact ⟨writeAddress_control d s, fun _ h => absurd rfl h⟩
  · exact ⟨(writeData_quiet d s).1, fun _ _ => (writeData_quiet d s).2⟩

/-- What a transaction outside the register window does, read. -/
theorem cpuBusRead_memory_quiet (a : Addr) (s : State) (h : a.toNat < 0x2000 ∨ 0x3FFF < a.toNat) :
    s.Quiet (endState (replyWith (cpuBusRead a s))) := by
  rw [cpuBusRead_memory a s h]
  split
  · split <;> exact ⟨⟨rfl, rfl, rfl, rfl⟩, rfl⟩
  · exact ⟨⟨rfl, rfl, rfl, rfl⟩, rfl⟩
  · exact ⟨⟨rfl, rfl, rfl, rfl⟩, rfl⟩

/-- What a transaction outside the register window does, written. -/
theorem cpuBusWrite_memory_quiet (a : Addr) (d : Byte) (s : State) (h : a.toNat < 0x2000 ∨ 0x3FFF < a.toNat) :
    s.Quiet (cpuBusWrite a d s) := by
  rw [cpuBusWrite_memory a d s h]
  split <;> exact ⟨⟨rfl, rfl, rfl, rfl⟩, rfl⟩

/-- A CPU transaction keeps the control state, abandoned or not, and the toggle unless it touches it (42 R195). -/
theorem cpuTransaction_control (txn : CpuTxn) (s : State) :
    s.SameControl (endState (cpuTransaction txn s)) ∧
      (¬ txn.touchesToggle → (endState (cpuTransaction txn s)).ppu.w = s.ppu.w) := by
  have hp : s.SameControl s.ppuClaims := ⟨rfl, rfl, rfl, rfl⟩
  cases txn with
  | read a =>
    by_cases ha : 0x2000 ≤ a.toNat ∧ a.toNat ≤ 0x3FFF
    · have h := readRegister_control (a.toNat % 8) s.ppuClaims
      simp only [cpuTransaction, cpuBusRead_register a s ha.1 ha.2, regIndex_eq]
      exact ⟨hp.trans h.1, fun hn => h.2 (fun hr => hn ⟨ha.1, ha.2, hr⟩)⟩
    · have h := cpuBusRead_memory_quiet a s (by omega)
      exact ⟨h.1, fun _ => h.2⟩
  | write a d =>
    by_cases ha : 0x2000 ≤ a.toNat ∧ a.toNat ≤ 0x3FFF
    · have h := writeRegister_control (a.toNat % 8) d s.ppuClaims
      simp only [cpuTransaction, cpuBusWrite_register a d s ha.1 ha.2, regIndex_eq, endState]
      exact ⟨hp.trans h.1, fun hn =>
        h.2 (fun hr => hn ⟨ha.1, ha.2, .inl hr⟩) (fun hr => hn ⟨ha.1, ha.2, .inr hr⟩)⟩
    · have h := cpuBusWrite_memory_quiet a d s (by omega)
      exact ⟨h.1, fun _ => h.2⟩

/-- So does a batch, abandoned or not. -/
theorem runBatch_control (txns : List CpuTxn) : ∀ s : State,
    s.SameControl (endState (runBatch txns s)) ∧
      ((∀ txn ∈ txns, ¬ txn.touchesToggle) → (endState (runBatch txns s)).ppu.w = s.ppu.w) := by
  induction txns with
  | nil => intro s; exact ⟨⟨rfl, rfl, rfl, rfl⟩, fun _ => rfl⟩
  | cons txn txns ih =>
    intro s
    have h := cpuTransaction_control txn s
    simp only [runBatch]
    cases ht : cpuTransaction txn s with
    | error t =>
      rw [ht] at h
      exact ⟨h.1, fun hn => h.2 (hn txn List.mem_cons_self)⟩
    | ok t =>
      rw [ht] at h
      exact ⟨h.1.trans (ih t).1, fun hn =>
        ((ih t).2 (fun x hx => hn x (List.mem_cons_of_mem _ hx))).trans (h.2 (hn txn List.mem_cons_self))⟩

end Sys2Proof.Machine
end

