-- ==== Sys2Proof/Laws/PerInstr.lean ====
section
/-!
SUPPORT. Per-instruction laws: the word the encoder gives a well-formed instruction matches that instruction's row of
opcode_table.json under the row's mask.
-/
namespace Sys2Proof.Laws.TableRow

/-- The encoded word has the row's fixed bits. -/
def Statement (i : Instr) : Prop := i.wf = true → encode i &&& i.rowMask = i.rowMatch

theorem assembleWord_and (op m1 : BitVec 4) (data m2 : Byte) (addr m3 : Addr) :
    assembleWord op data addr &&& assembleWord m1 m2 m3 = assembleWord (op &&& m1) (data &&& m2) (addr &&& m3) := by
  show ((op ++ data) ++ addr : BitVec (4 + 8 + 16)) &&& ((m1 ++ m2) ++ m3) = ((op &&& m1) ++ (data &&& m2)) ++ (addr &&& m3)
  rw [BitVec.and_append, BitVec.and_append]

theorem addr_and {m v a : Addr} (h : addrMatches m v a = true) : a &&& m = v := by
  simpa [addrMatches] using h

theorem cpuRdWram (addr : Addr) : Statement (.cpuRdWram addr) := by
  intro h
  show assembleWord 0x0 0 addr &&& assembleWord 0xF 0xFF 0xE000 = assembleWord 0x0 0 0x0000
  rw [assembleWord_and, addr_and h]
  simp

theorem cpuRdReg0 (addr : Addr) : Statement (.cpuRdReg0 addr) := by
  intro h
  show assembleWord 0x0 0 addr &&& assembleWord 0xF 0xFF 0xE007 = assembleWord 0x0 0 0x2000
  rw [assembleWord_and, addr_and h]
  simp

theorem cpuRdReg1 (addr : Addr) : Statement (.cpuRdReg1 addr) := by
  intro h
  show assembleWord 0x0 0 addr &&& assembleWord 0xF 0xFF 0xE007 = assembleWord 0x0 0 0x2001
  rw [assembleWord_and, addr_and h]
  simp

theorem cpuRdReg2 (addr : Addr) : Statement (.cpuRdReg2 addr) := by
  intro h
  show assembleWord 0x0 0 addr &&& assembleWord 0xF 0xFF 0xE007 = assembleWord 0x0 0 0x2002
  rw [assembleWord_and, addr_and h]
  simp

theorem cpuRdReg3 (addr : Addr) : Statement (.cpuRdReg3 addr) := by
  intro h
  show assembleWord 0x0 0 addr &&& assembleWord 0xF 0xFF 0xE007 = assembleWord 0x0 0 0x2003
  rw [assembleWord_and, addr_and h]
  simp

theorem cpuRdReg4 (addr : Addr) : Statement (.cpuRdReg4 addr) := by
  intro h
  show assembleWord 0x0 0 addr &&& assembleWord 0xF 0xFF 0xE007 = assembleWord 0x0 0 0x2004
  rw [assembleWord_and, addr_and h]
  simp

theorem cpuRdReg5 (addr : Addr) : Statement (.cpuRdReg5 addr) := by
  intro h
  show assembleWord 0x0 0 addr &&& assembleWord 0xF 0xFF 0xE007 = assembleWord 0x0 0 0x2005
  rw [assembleWord_and, addr_and h]
  simp

theorem cpuRdReg6 (addr : Addr) : Statement (.cpuRdReg6 addr) := by
  intro h
  show assembleWord 0x0 0 addr &&& assembleWord 0xF 0xFF 0xE007 = assembleWord 0x0 0 0x2006
  rw [assembleWord_and, addr_and h]
  simp

theorem cpuRdReg7 (addr : Addr) : Statement (.cpuRdReg7 addr) := by
  intro h
  show assembleWord 0x0 0 addr &&& assembleWord 0xF 0xFF 0xE007 = assembleWord 0x0 0 0x2007
  rw [assembleWord_and, addr_and h]
  simp

theorem cpuRdOpen (addr : Addr) : Statement (.cpuRdOpen addr) := by
  intro h
  show assembleWord 0x0 0 addr &&& assembleWord 0xF 0xFF 0xC000 = assembleWord 0x0 0 0x4000
  rw [assembleWord_and, addr_and h]
  simp

theorem cpuRdPrg (addr : Addr) : Statement (.cpuRdPrg addr) := by
  intro h
  show assembleWord 0x0 0 addr &&& assembleWord 0xF 0xFF 0x8000 = assembleWord 0x0 0 0x8000
  rw [assembleWord_and, addr_and h]
  simp

theorem cpuWrWram (addr : Addr) (data : Byte) : Statement (.cpuWrWram addr data) := by
  intro h
  show assembleWord 0x1 data addr &&& assembleWord 0xF 0x00 0xE000 = assembleWord 0x1 0 0x0000
  rw [assembleWord_and, addr_and h]
  simp

theorem cpuWrReg0 (addr : Addr) (data : Byte) : Statement (.cpuWrReg0 addr data) := by
  intro h
  show assembleWord 0x1 data addr &&& assembleWord 0xF 0x00 0xE007 = assembleWord 0x1 0 0x2000
  rw [assembleWord_and, addr_and h]
  simp

theorem cpuWrReg1 (addr : Addr) (data : Byte) : Statement (.cpuWrReg1 addr data) := by
  intro h
  show assembleWord 0x1 data addr &&& assembleWord 0xF 0x00 0xE007 = assembleWord 0x1 0 0x2001
  rw [assembleWord_and, addr_and h]
  simp

theorem cpuWrReg2 (addr : Addr) (data : Byte) : Statement (.cpuWrReg2 addr data) := by
  intro h
  show assembleWord 0x1 data addr &&& assembleWord 0xF 0x00 0xE007 = assembleWord 0x1 0 0x2002
  rw [assembleWord_and, addr_and h]
  simp

theorem cpuWrReg3 (addr : Addr) (data : Byte) : Statement (.cpuWrReg3 addr data) := by
  intro h
  show assembleWord 0x1 data addr &&& assembleWord 0xF 0x00 0xE007 = assembleWord 0x1 0 0x2003
  rw [assembleWord_and, addr_and h]
  simp

theorem cpuWrReg4 (addr : Addr) (data : Byte) : Statement (.cpuWrReg4 addr data) := by
  intro h
  show assembleWord 0x1 data addr &&& assembleWord 0xF 0x00 0xE007 = assembleWord 0x1 0 0x2004
  rw [assembleWord_and, addr_and h]
  simp

theorem cpuWrReg5 (addr : Addr) (data : Byte) : Statement (.cpuWrReg5 addr data) := by
  intro h
  show assembleWord 0x1 data addr &&& assembleWord 0xF 0x00 0xE007 = assembleWord 0x1 0 0x2005
  rw [assembleWord_and, addr_and h]
  simp

theorem cpuWrReg6 (addr : Addr) (data : Byte) : Statement (.cpuWrReg6 addr data) := by
  intro h
  show assembleWord 0x1 data addr &&& assembleWord 0xF 0x00 0xE007 = assembleWord 0x1 0 0x2006
  rw [assembleWord_and, addr_and h]
  simp

theorem cpuWrReg7 (addr : Addr) (data : Byte) : Statement (.cpuWrReg7 addr data) := by
  intro h
  show assembleWord 0x1 data addr &&& assembleWord 0xF 0x00 0xE007 = assembleWord 0x1 0 0x2007
  rw [assembleWord_and, addr_and h]
  simp

theorem cpuWrOpen (addr : Addr) (data : Byte) : Statement (.cpuWrOpen addr data) := by
  intro h
  show assembleWord 0x1 data addr &&& assembleWord 0xF 0x00 0xC000 = assembleWord 0x1 0 0x4000
  rw [assembleWord_and, addr_and h]
  simp

theorem cpuWrPrg (addr : Addr) (data : Byte) : Statement (.cpuWrPrg addr data) := by
  intro h
  show assembleWord 0x1 data addr &&& assembleWord 0xF 0x00 0x8000 = assembleWord 0x1 0 0x8000
  rw [assembleWord_and, addr_and h]
  simp

theorem ppuRdChr (addr : Addr) : Statement (.ppuRdChr addr) := by
  intro h
  show assembleWord 0x2 0 addr &&& assembleWord 0xF 0xFF 0xE000 = assembleWord 0x2 0 0x0000
  rw [assembleWord_and, addr_and h]
  simp

theorem ppuRdNt (addr : Addr) : Statement (.ppuRdNt addr) := by
  intro h
  show assembleWord 0x2 0 addr &&& assembleWord 0xF 0xFF 0xE000 = assembleWord 0x2 0 0x2000
  have h' : addrMatches 0xE000 0x2000 addr = true := (Bool.and_eq_true_iff.1 h).1
  rw [assembleWord_and, addr_and h']
  simp

theorem ppuRdPal (addr : Addr) : Statement (.ppuRdPal addr) := by
  intro h
  show assembleWord 0x2 0 addr &&& assembleWord 0xF 0xFF 0xFF00 = assembleWord 0x2 0 0x3F00
  rw [assembleWord_and, addr_and h]
  simp

theorem ppuWrChr (addr : Addr) (data : Byte) : Statement (.ppuWrChr addr data) := by
  intro h
  show assembleWord 0x3 data addr &&& assembleWord 0xF 0x00 0xE000 = assembleWord 0x3 0 0x0000
  rw [assembleWord_and, addr_and h]
  simp

theorem ppuWrNt (addr : Addr) (data : Byte) : Statement (.ppuWrNt addr data) := by
  intro h
  show assembleWord 0x3 data addr &&& assembleWord 0xF 0x00 0xE000 = assembleWord 0x3 0 0x2000
  have h' : addrMatches 0xE000 0x2000 addr = true := (Bool.and_eq_true_iff.1 h).1
  rw [assembleWord_and, addr_and h']
  simp

theorem ppuWrPal (addr : Addr) (data : Byte) : Statement (.ppuWrPal addr data) := by
  intro h
  show assembleWord 0x3 data addr &&& assembleWord 0xF 0x00 0xFF00 = assembleWord 0x3 0 0x3F00
  rw [assembleWord_and, addr_and h]
  simp

theorem ppuClock : Statement (.ppuClock) := by
  intro h
  rfl

theorem sysStep : Statement (.sysStep) := by
  intro h
  rfl

theorem reset : Statement (.reset) := by
  intro h
  rfl

theorem powerOn : Statement (.powerOn) := by
  intro h
  rfl

theorem loadCart : Statement (.loadCart) := by
  intro h
  rfl

theorem setRun (run : Bool) : Statement (.setRun run) := by
  intro h
  cases run <;> rfl

theorem reservedOpAB (op : BitVec 4) (data : Byte) (addr : Addr) : Statement (.reservedOpAB op data addr) := by
  intro h
  show assembleWord op data addr &&& assembleWord 0xE 0x00 0x0000 = assembleWord 0xA 0 0
  rw [assembleWord_and]
  simp only [Instr.wf, Bool.or_eq_true, beq_iff_eq] at h
  rcases h with h | h <;> subst h <;> simp

theorem reservedOpCF (op : BitVec 4) (data : Byte) (addr : Addr) : Statement (.reservedOpCF op data addr) := by
  intro h
  show assembleWord op data addr &&& assembleWord 0xC 0x00 0x0000 = assembleWord 0xC 0 0
  rw [assembleWord_and]
  simp only [Instr.wf, Bool.or_eq_true, beq_iff_eq] at h
  rcases h with ((h | h) | h) | h <;> subst h <;> simp

end Sys2Proof.Laws.TableRow
end

