-- ==== Sys2Proof/Machine/Script.lean ====
section
/-!
DEFINITION. The line syntax of the spec's test programs and its pseudo-instructions, as requests (spec 30 R102). Text itself is
not parsed: a line is its parsed form.
-/
namespace Sys2Proof.Machine

/-- One line of a script (30 R102). -/
inductive ScriptLine where
  /-- `R aaaa` -/
  | r (addr : Addr)
  /-- `W aaaa dd` -/
  | w (addr : Addr) (data : Byte)
  /-- `PR aaaa` -/
  | pr (addr : Addr)
  /-- `PW aaaa dd` -/
  | pw (addr : Addr) (data : Byte)
  /-- `CLK n`; `CLK` is `CLK 1` -/
  | clk (n : Nat)
  /-- `STEP n`; `STEP` is `STEP 1` -/
  | step (n : Nat)
  /-- `RESET` -/
  | reset
  /-- `POWERON` -/
  | powerOn
  /-- `LOAD <image-name>`, the named image in full -/
  | load (image : Image)
  /-- `RUN` -/
  | run
  /-- `PAUSE` -/
  | pause
  /-- `LATCHRST` -/
  | latchRst
  /-- `SETADDR hhll` -/
  | setAddr (hh ll : Byte)
  /-- `SETSCROLL xx yy` -/
  | setScroll (xx yy : Byte)
  /-- `WDATA d1 d2 ... dn` -/
  | wData (ds : List Byte)
  /-- `OAMW aa d1 ... dn` -/
  | oamW (aa : Byte) (ds : List Byte)
  /-- `RUNTO s c` -/
  | runTo (scanline : Int) (cycle : Nat)
  deriving DecidableEq, Repr

/-- A word with no image beside it. -/
def plainRequest (op : BitVec 4) (data : Byte) (addr : Addr) : Request :=
  { word := assembleWord op data addr, image := .unreadable }

/-- The CPU_WR word of `W aaaa dd`. -/
def writeLine (addr : Addr) (data : Byte) : Request := plainRequest 0x1 data addr

/-- How many clocks `RUNTO` makes from a state, at most `fuel`; none if it is there already (30 R102; assumption 16). -/
def clocksUntil (scanline : Int) (cycle : Nat) : Nat → State → Nat
  | 0, _ => 0
  | fuel + 1, s =>
    if s.ppu.scanline = scanline ∧ s.ppu.cycle = cycle then 0
    else
      match clock s with
      | .ok s' => clocksUntil scanline cycle fuel s' + 1
      | .error _ => 1

/-- The requests a line stands for. Only `RUNTO` depends on the state it is reached in (30 R102). -/
def ScriptLine.requests (l : ScriptLine) (s : State) : List Request :=
  match l with
  | .r addr => [plainRequest 0x0 0 addr]
  | .w addr data => [writeLine addr data]
  | .pr addr => [plainRequest 0x2 0 addr]
  | .pw addr data => [plainRequest 0x3 data addr]
  | .clk n => List.replicate n (plainRequest 0x4 0 0)
  | .step n => List.replicate n (plainRequest 0x5 0 0)
  | .reset => [plainRequest 0x6 0 0]
  | .powerOn => [plainRequest 0x7 0 0]
  | .load image => [{ plainRequest 0x8 0 0 with image := image }]
  | .run => [plainRequest 0x9 1 0]
  | .pause => [plainRequest 0x9 0 0]
  | .latchRst => [plainRequest 0x0 0 0x2002]
  | .setAddr hh ll => [writeLine 0x2006 hh, writeLine 0x2006 ll]
  | .setScroll xx yy => [writeLine 0x2005 xx, writeLine 0x2005 yy]
  | .wData ds => ds.map (writeLine 0x2007)
  | .oamW aa ds => writeLine 0x2003 aa :: ds.map (writeLine 0x2004)
  | .runTo scanline cycle => List.replicate (clocksUntil scanline cycle (341 * 262) s) (plainRequest 0x4 0 0)

end Sys2Proof.Machine
end

