-- ==== Sys2Proof/Tests/Slice0.lean ====
section
/-!
SUPPORT. The model's own tests: words written out from spec 30 decode as they should, ill-formed terms are refused by the
well-formedness check, single steps give the values of the test vectors of 95_test_vectors.md (named V-…), and for each
obligation with hypotheses a witness that meets them.
-/
namespace Sys2Proof.Tests
open Sys2Proof.Machine

/-! ## Decoding (30 R90-R93; V-ENC-1 to V-ENC-15). A word is op, data, addr: one, two and four hexadecimal digits. -/

theorem test_decode_cpu_rd_wram : decodeTableWord 28 0x0001801 = some (.cpuRdWram 0x1801) := by decide
theorem test_decode_cpu_rd_reg0 : decodeTableWord 28 0x0002000 = some (.cpuRdReg0 0x2000) := by decide
theorem test_decode_cpu_rd_reg1 : decodeTableWord 28 0x0003FF9 = some (.cpuRdReg1 0x3FF9) := by decide
theorem test_decode_cpu_rd_reg2 : decodeTableWord 28 0x0002002 = some (.cpuRdReg2 0x2002) := by decide
theorem test_decode_cpu_rd_reg3 : decodeTableWord 28 0x0002003 = some (.cpuRdReg3 0x2003) := by decide
theorem test_decode_cpu_rd_reg4 : decodeTableWord 28 0x000200C = some (.cpuRdReg4 0x200C) := by decide
theorem test_decode_cpu_rd_reg5 : decodeTableWord 28 0x0002345 = some (.cpuRdReg5 0x2345) := by decide
theorem test_decode_cpu_rd_reg6 : decodeTableWord 28 0x0003456 = some (.cpuRdReg6 0x3456) := by decide
theorem test_decode_cpu_rd_reg7 : decodeTableWord 28 0x0003FFF = some (.cpuRdReg7 0x3FFF) := by decide
theorem test_decode_cpu_rd_open : decodeTableWord 28 0x0006000 = some (.cpuRdOpen 0x6000) := by decide
theorem test_decode_cpu_rd_prg : decodeTableWord 28 0x000C000 = some (.cpuRdPrg 0xC000) := by decide
theorem test_decode_cpu_wr_wram : decodeTableWord 28 0x1A51FFF = some (.cpuWrWram 0x1FFF 0xA5) := by decide
theorem test_decode_cpu_wr_reg0 : decodeTableWord 28 0x1932000 = some (.cpuWrReg0 0x2000 0x93) := by decide
theorem test_decode_cpu_wr_reg1 : decodeTableWord 28 0x11E2001 = some (.cpuWrReg1 0x2001 0x1E) := by decide
theorem test_decode_cpu_wr_reg2 : decodeTableWord 28 0x1FF3FFA = some (.cpuWrReg2 0x3FFA 0xFF) := by decide
theorem test_decode_cpu_wr_reg3 : decodeTableWord 28 0x1102003 = some (.cpuWrReg3 0x2003 0x10) := by decide
theorem test_decode_cpu_wr_reg4 : decodeTableWord 28 0x1772004 = some (.cpuWrReg4 0x2004 0x77) := by decide
theorem test_decode_cpu_wr_reg5 : decodeTableWord 28 0x17D2005 = some (.cpuWrReg5 0x2005 0x7D) := by decide
theorem test_decode_cpu_wr_reg6 : decodeTableWord 28 0x13F2006 = some (.cpuWrReg6 0x2006 0x3F) := by decide
theorem test_decode_cpu_wr_reg7 : decodeTableWord 28 0x1AA2007 = some (.cpuWrReg7 0x2007 0xAA) := by decide
theorem test_decode_cpu_wr_open : decodeTableWord 28 0x1014016 = some (.cpuWrOpen 0x4016 0x01) := by decide
theorem test_decode_cpu_wr_prg : decodeTableWord 28 0x1018000 = some (.cpuWrPrg 0x8000 0x01) := by decide
theorem test_decode_ppu_rd_chr : decodeTableWord 28 0x2001234 = some (.ppuRdChr 0x1234) := by decide
theorem test_decode_ppu_rd_nt : decodeTableWord 28 0x2003EFF = some (.ppuRdNt 0x3EFF) := by decide
theorem test_decode_ppu_rd_pal : decodeTableWord 28 0x2003F10 = some (.ppuRdPal 0x3F10) := by decide
theorem test_decode_ppu_wr_chr : decodeTableWord 28 0x3AA0000 = some (.ppuWrChr 0x0000 0xAA) := by decide
theorem test_decode_ppu_wr_nt : decodeTableWord 28 0x3112805 = some (.ppuWrNt 0x2805 0x11) := by decide
theorem test_decode_ppu_wr_pal : decodeTableWord 28 0x3FF3FFF = some (.ppuWrPal 0x3FFF 0xFF) := by decide
theorem test_decode_ppu_clock : decodeTableWord 28 0x4000000 = some .ppuClock := by decide
theorem test_decode_sys_step : decodeTableWord 28 0x5000000 = some .sysStep := by decide
theorem test_decode_reset : decodeTableWord 28 0x6000000 = some .reset := by decide
theorem test_decode_power_on : decodeTableWord 28 0x7000000 = some .powerOn := by decide
theorem test_decode_load_cart : decodeTableWord 28 0x8000000 = some .loadCart := by decide
theorem test_decode_set_run :
    decodeTableWord 28 0x9010000 = some (.setRun true) ∧ decodeTableWord 28 0x9000000 = some (.setRun false) := by decide
theorem test_decode_reserved_a_b : decodeTableWord 28 0xA000000 = some (.reservedOpAB 0xA 0 0) := by decide
theorem test_decode_reserved_c_f : decodeTableWord 28 0xF123456 = some (.reservedOpCF 0xF 0x12 0x3456) := by decide

/-- V-ENC-10 to V-ENC-13, and one word for each other reserved field of 30 R92. -/
theorem test_decode_reserved_fields :
    decodeTableWord 28 0x0010000 = none ∧ decodeTableWord 28 0x2004000 = none ∧ decodeTableWord 28 0x4000001 = none ∧
    decodeTableWord 28 0x9020000 = none ∧ decodeTableWord 28 0x2010000 = none ∧ decodeTableWord 28 0x3008000 = none ∧
    decodeTableWord 28 0x4010000 = none ∧ decodeTableWord 28 0x5000001 = none ∧ decodeTableWord 28 0x6800000 = none ∧
    decodeTableWord 28 0x7000100 = none ∧ decodeTableWord 28 0x8010000 = none ∧ decodeTableWord 28 0x9000001 = none := by
  decide

/-! ## Well-formedness: one ill-formed term for each check -/

theorem test_wf_refuses_cpu_reads :
    (Instr.cpuRdWram 0x2000).wf = false ∧ (Instr.cpuRdReg0 0x2001).wf = false ∧ (Instr.cpuRdReg1 0x2000).wf = false ∧
    (Instr.cpuRdReg2 0x4002).wf = false ∧ (Instr.cpuRdReg3 0x2004).wf = false ∧ (Instr.cpuRdReg4 0x1FFC).wf = false ∧
    (Instr.cpuRdReg5 0x2007).wf = false ∧ (Instr.cpuRdReg6 0xA006).wf = false ∧ (Instr.cpuRdReg7 0x2006).wf = false ∧
    (Instr.cpuRdOpen 0x8000).wf = false ∧ (Instr.cpuRdPrg 0x7FFF).wf = false := by decide

theorem test_wf_refuses_cpu_writes :
    (Instr.cpuWrWram 0x2000 0).wf = false ∧ (Instr.cpuWrReg0 0x2001 0).wf = false ∧
    (Instr.cpuWrReg1 0x2000 0).wf = false ∧ (Instr.cpuWrReg2 0x4002 0).wf = false ∧
    (Instr.cpuWrReg3 0x2004 0).wf = false ∧ (Instr.cpuWrReg4 0x1FFC 0).wf = false ∧
    (Instr.cpuWrReg5 0x2007 0).wf = false ∧ (Instr.cpuWrReg6 0xA006 0).wf = false ∧
    (Instr.cpuWrReg7 0x2006 0).wf = false ∧ (Instr.cpuWrOpen 0x3FFF 0).wf = false ∧
    (Instr.cpuWrPrg 0x7FFF 0).wf = false := by decide

theorem test_wf_refuses_ppu_and_reserved :
    (Instr.ppuRdChr 0x2000).wf = false ∧ (Instr.ppuRdNt 0x3F00).wf = false ∧ (Instr.ppuRdNt 0x1FFF).wf = false ∧
    (Instr.ppuRdPal 0x3EFF).wf = false ∧ (Instr.ppuWrChr 0x2000 0).wf = false ∧ (Instr.ppuWrNt 0x3F00 0).wf = false ∧
    (Instr.ppuWrNt 0x4000 0).wf = false ∧ (Instr.ppuWrPal 0x4000 0).wf = false ∧
    (Instr.reservedOpAB 0xC 0 0).wf = false ∧ (Instr.reservedOpCF 0x9 0 0).wf = false := by decide

/-! ## One step on small states -/

/-- The state an instruction ends in. -/
def after (i : Instr) (s : State) : State :=
  match exec i s with
  | .next t => t
  | .fault _ => s
  | .refused _ => s

/-- The byte the last read returned. -/
def lastByte (s : State) : Option Byte := s.env.replies.head?

/-- Reset with another PPU. -/
def withPpu (p : Ppu) : State := { State.reset with ppu := p }

/-- Reset, moved to a dot. -/
def atDot (scanline : Int) (cycle : Nat) : State := withPpu { Ppu.powerUp with scanline := scanline, cycle := cycle }

def smallHeader : Header :=
  { format := .iNES, prgBanks := 1, chrBanks := 0, mirroring := true, battery := false, trainer := false,
    fourScreen := false, mapperId := 0, vsUnisystem := false, playChoice10 := false, prgRamSize := 0, tvSystem := 0,
    flags10 := 0 }

/-- Reset with a cartridge loaded: one PRG bank of which the first three bytes stand, the given CHR, vertical mirroring. -/
def withCart (chr : ChrStore) : State :=
  { State.reset with
    cart := { Cart.constructed with loaded := true, header := some smallHeader, prg := [0x11, 0x22, 0x33], chr := chr } }

/-- V-FAB-3. -/
theorem test_wram_mirrors :
    lastByte (after (.cpuRdWram 0x1801) (after (.cpuWrWram 0x0801 0x5A) State.reset)) = some 0x5A := by decide
/-- V-REG-13: the registers keep their values, the reads return 0. -/
theorem test_write_only_registers :
    lastByte (after (.cpuRdReg0 0x2000) (withPpu { Ppu.powerUp with ctrl := 0x80 })) = some 0x00 ∧
    lastByte (after (.cpuRdReg1 0x2001) (withPpu { Ppu.powerUp with mask := 0x80 })) = some 0x00 ∧
    lastByte (after (.cpuRdReg3 0x2003) (withPpu { Ppu.powerUp with oamAddr := 0x80 })) = some 0x00 ∧
    lastByte (after (.cpuRdReg5 0x2005) (withPpu { Ppu.powerUp with fineX := 7 })) = some 0x00 ∧
    lastByte (after (.cpuRdReg6 0x2006) (withPpu { Ppu.powerUp with t := 0x1234 })) = some 0x00 := by decide
/-- V-REG-3: vblank and the toggle are cleared, the sprite-0 hit is not. -/
theorem test_status_read_clears :
    (after (.cpuRdReg2 0x2002) (withPpu { Ppu.powerUp with status := 0xC0, w := true })).ppu.status = 0x40 ∧
    (after (.cpuRdReg2 0x2002) (withPpu { Ppu.powerUp with status := 0xC0, w := true })).ppu.w = false := by decide
/-- V-REG-7: a read does not advance the pointer. -/
theorem test_oam_data_read :
    lastByte (after (.cpuRdReg4 0x2004) (withPpu { Ppu.powerUp with oamAddr := 1, oam := [(1, 0x01)] })) = some 0x01 ∧
    (after (.cpuRdReg4 0x2004) (withPpu { Ppu.powerUp with oamAddr := 1, oam := [(1, 0x01)] })).ppu.oamAddr = 1 := by
  decide
/-- V-REG-17. -/
theorem test_data_read :
    lastByte (after (.cpuRdReg7 0x2007) (withPpu { Ppu.powerUp with v := 0x3F01, pal := [(1, 0x30)] })) = some 0x30 ∧
    (after (.cpuRdReg7 0x2007) (withPpu { Ppu.powerUp with v := 0x3F01, pal := [(1, 0x30)] })).ppu.v = 0x3F02 := by
  decide
/-- V-REG-18, its first read: the buffer comes back and is refilled. -/
theorem test_data_read_buffered :
    let s : State :=
      { State.reset with
        config := { Config.default with dataReadBuffered := true }
        vram := [(0, 0x5A)]
        ppu := { Ppu.powerUp with v := 0x2000, dataBuf := 0x77 } }
    lastByte (after (.cpuRdReg7 0x2007) s) = some 0x77 ∧ (after (.cpuRdReg7 0x2007) s).ppu.dataBuf = 0x5A := by decide
/-- V-FAB-2, V-L1-13. -/
theorem test_open_bus :
    lastByte (after (.cpuRdOpen 0x5000) State.reset) = some 0x00 ∧ after (.cpuWrOpen 0x4016 0x01) State.reset = State.reset := by
  decide
/-- V-MAP-1: one bank is mirrored. -/
theorem test_prg_read_mirrored :
    lastByte (after (.cpuRdPrg 0x8002) (withCart (.ram []))) = some 0x33 ∧
    lastByte (after (.cpuRdPrg 0xC002) (withCart (.ram []))) = some 0x33 := by decide
/-- V-MAP-3. -/
theorem test_prg_read_without_bank :
    (after (.cpuRdPrg 0x8000) { withCart (.ram []) with
      cart := { (withCart (.ram [])).cart with header := some { smallHeader with prgBanks := 0 }, prg := [] } }).fault =
      some (.mapperOffsetOutOfBounds 0x8000 0) := by decide
/-- V-REG-1. -/
theorem test_control_write :
    (after (.cpuWrReg0 0x2000 0x03) State.reset).ppu.ctrl = 0x03 ∧
    (after (.cpuWrReg0 0x2000 0x03) State.reset).ppu.t = 0x0C00 := by decide
/-- V-EXC-5: enabling the NMI while vblank is set requests none. -/
theorem test_control_write_requests_no_nmi :
    (after (.cpuWrReg0 0x2000 0x80) (withPpu { Ppu.powerUp with status := 0x80 })).ppu.nmiPending = false := by decide
/-- V-REG-2, V-REG-4, V-REG-5. -/
theorem test_mask_status_oam_addr_write :
    (after (.cpuWrReg1 0x2001 0x1E) State.reset).ppu.mask = 0x1E ∧
    (after (.cpuWrReg2 0x2002 0x00) (withPpu { Ppu.powerUp with status := 0x80 })).ppu.status = 0x80 ∧
    (after (.cpuWrReg3 0x2003 0x10) State.reset).ppu.oamAddr = 0x10 := by decide
/-- V-REG-6. -/
theorem test_oam_data_write_wraps :
    (after (.cpuWrReg4 0x2004 0x77) (withPpu { Ppu.powerUp with oamAddr := 0xFF })).ppu.oamAddr = 0x00 ∧
    (after (.cpuWrReg4 0x2004 0x77) (withPpu { Ppu.powerUp with oamAddr := 0xFF })).ppu.oamByte 0xFF = 0x77 := by decide
/-- V-REG-8. -/
theorem test_scroll_pair :
    (after (.cpuWrReg5 0x2005 0x5E) (after (.cpuWrReg5 0x2005 0x7D) State.reset)).ppu.t = 0x616F ∧
    (after (.cpuWrReg5 0x2005 0x5E) (after (.cpuWrReg5 0x2005 0x7D) State.reset)).ppu.fineX = 5 := by decide
/-- V-REG-9. -/
theorem test_scroll_first_keeps_nametable :
    (after (.cpuWrReg5 0x2005 0xF8) (withPpu { Ppu.powerUp with t := 0x0C00 })).ppu.t = 0x0C1F := by decide
/-- V-REG-11, V-REG-12. -/
theorem test_address_pair :
    (after (.cpuWrReg6 0x2006 0xFF) (withPpu { Ppu.powerUp with t := 0x00AB })).ppu.t = 0x3FAB ∧
    (after (.cpuWrReg6 0x2006 0x10) (withPpu { Ppu.powerUp with t := 0x3FAB, w := true })).ppu.v = 0x3F10 := by decide
/-- V-REG-10: the halves are shared with Scroll. -/
theorem test_shared_toggle :
    (after (.cpuWrReg6 0x2006 0x3F) (after (.cpuWrReg5 0x2005 0x00) State.reset)).ppu.v = 0x003F := by decide
/-- V-REG-14. -/
theorem test_data_write_by_32 :
    (after (.cpuWrReg7 0x2007 0xAA) (withPpu { Ppu.powerUp with v := 0x2000, ctrl := 0x04 })).ppu.v = 0x2020 ∧
    storeByte .vram (after (.cpuWrReg7 0x2007 0xAA) (withPpu { Ppu.powerUp with v := 0x2000, ctrl := 0x04 })).vram 0 =
      0xAA := by decide
/-- V-REG-16: `v` wraps at 15 bits, the address at 14. -/
theorem test_data_write_wraps :
    (after (.cpuWrReg7 0x2007 0x12) (withPpu { Ppu.powerUp with v := 0x7FFF })).ppu.v = 0x0000 ∧
    (after (.cpuWrReg7 0x2007 0x12) (withPpu { Ppu.powerUp with v := 0x7FFF })).ppu.pal = [(0x1F, 0x12)] := by decide
/-- V-MAP-4. -/
theorem test_prg_write_discarded :
    (after (.cpuWrPrg 0x8000 0x55) (withCart (.ram []))).cart = (withCart (.ram [])).cart ∧
    (after (.cpuWrPrg 0x8000 0x55) (withCart (.ram []))).claimed.cartCpu = true := by decide
/-- V-MAP-5, V-MAP-6. -/
theorem test_chr_ram_and_rom :
    lastByte (after (.ppuRdChr 0x0000) (after (.ppuWrChr 0x0000 0xAA) (withCart (.ram [])))) = some 0xAA ∧
    lastByte (after (.ppuRdChr 0x0000) (after (.ppuWrChr 0x0000 0xAA) (withCart (.rom [0x07])))) = some 0x07 := by decide
/-- V-FAB-6, no cartridge: horizontal. -/
theorem test_nametable_horizontal :
    (after (.ppuWrNt 0x2805 0x11) State.reset).vram = [(0x405, 0x11)] ∧
    lastByte (after (.ppuRdNt 0x3805) (after (.ppuWrNt 0x2805 0x11) State.reset)) = some 0x11 := by decide
/-- V-FAB-7, mirroring 1: vertical. -/
theorem test_nametable_vertical :
    (after (.ppuWrNt 0x2805 0x11) (withCart (.ram []))).vram = [(0x005, 0x11)] := by decide
/-- V-L1-9. -/
theorem test_palette_alias :
    lastByte (after (.ppuRdPal 0x3F04) (after (.ppuWrPal 0x3F14 0x2A) State.reset)) = some 0x2A ∧
    (after (.ppuWrPal 0x3F11 0x05) State.reset).ppu.pal = [(0x11, 0x05)] := by decide
/-- V-REG-20, V-REG-21. -/
theorem test_palette_masks :
    lastByte (after (.ppuRdPal 0x3F00) (withPpu { Ppu.powerUp with mask := 0x01, pal := [(0, 0x2C)] })) = some 0x20 ∧
    lastByte (after (.ppuRdPal 0x3F00) (withPpu { Ppu.powerUp with pal := [(0, 0xFF)] })) = some 0x3F := by decide
/-- V-L1-2. -/
theorem test_clock_wraps :
    (after .ppuClock (atDot 5 340)).ppu.scanline = 6 ∧ (after .ppuClock (atDot 260 340)).ppu.scanline = -1 ∧
    (after .ppuClock (atDot 260 340)).ppu.frameComplete = true := by decide
/-- V-REN-29, composed by the clock: sprite 0 opaque over an opaque background pixel at (10, 3), the window's shift with it. -/
theorem test_sprite_zero_hit :
    ((after .ppuClock (withPpu
      { Ppu.powerUp with
        mask := 0x1E, scanline := 10, cycle := 3, bgShPatLo := 0x4000, spriteCount := 1, zeroHitPossible := true
        sprites := [{ Sprite.cleared with x := 0, shLo := 0x40 }] })).ppu.spriteZeroHit) = true := by decide
/-- V-SYS-1. -/
theorem test_step_is_three_dots :
    (after .sysStep State.reset).ppu.cycle = 3 ∧ (after .sysStep State.reset).env.cpuCalls = [.clock] := by decide
/-- V-SYS-6. -/
theorem test_step_delivers_nmi :
    (after .sysStep (withPpu { Ppu.powerUp with nmiPending := true })).env.cpuCalls = [.clock, .nmi] ∧
    (after .sysStep (withPpu { Ppu.powerUp with nmiPending := true })).ppu.nmiPending = false := by decide
/-- V-SYS-5. -/
theorem test_reset_position :
    (after .reset (atDot 50 50)).ppu = Ppu.powerUp ∧ (after .reset (atDot 50 50)).env.cpuCalls = [.reset] := by decide
/-- V-SYS-3, V-SYS-4. -/
theorem test_power_on :
    after .powerOn (atDot 50 50) = atDot 50 50 ∧
    (after .powerOn { withCart (.ram []) with ppu := (atDot 50 50).ppu }).ppu.scanline = -1 := by decide

/-- Reset with an image beside the word. -/
def withImage (img : Image) : State := { State.reset with env := { Env.quiet with operand := img } }

/-- V-L1-16, V-L1-17 on the shortest image that has a mapper number. -/
theorem test_load_small :
    (after .loadCart (withImage (.bytes [0x4E, 0x45, 0x53, 0x1A, 0, 0, 0x11, 0x30, 0, 0, 0, 0, 0, 0, 0, 0]))).cart.mapper =
      .nrom ∧
    (after .loadCart (withImage (.bytes [0x4E, 0x45, 0x53, 0x1A, 0, 0, 0x31, 0, 0, 0, 0, 0, 0, 0, 0, 0]))).cart.mapper =
      .cnrom := by decide
/-- V-LOAD-1 to V-LOAD-3, V-LOAD-12. -/
theorem test_load_stops :
    (after .loadCart (withImage .unreadable)).fault = some .loadUnreadable ∧
    (after .loadCart (withImage (.bytes [0x4E, 0x45, 0x53]))).fault = some (.loadTruncated 3 16) ∧
    (after .loadCart (withImage (.bytes (0x4E :: 0x45 :: 0x53 :: List.replicate 13 0)))).fault =
      some (.loadBadSignature 0x4E 0x45 0x53 0x00) ∧
    (after .loadCart (withCart (.ram []))).refused = some .secondLoad := by decide
/-- V-SYS-2, V-SYS-9. -/
theorem test_pause :
    after .sysStep (after (.setRun false) State.reset) = after (.setRun false) State.reset ∧
    (after .ppuClock (after (.setRun false) State.reset)).ppu.cycle = 1 := by decide
/-- V-EXC-2. -/
theorem test_reserved_operations :
    after (.reservedOpAB 0xB 0 0) State.reset = { State.reset with refused := some .reservedOp } ∧
    after (.reservedOpCF 0xC 0 0) State.reset = { State.reset with refused := some .reservedOp } := by decide
/-- V-REN-2, V-REN-5, V-REN-6, V-REN-7, V-REN-8, V-REN-9. -/
theorem test_scroll_vectors :
    incScrollX 0x001F = 0x0400 ∧ incScrollY 0x73A0 = 0x0800 ∧ incScrollY 0x73C0 = 0x03E0 ∧ incScrollY 0x73E0 = 0x0000 ∧
    transferX 0x0415 0x0002 = 0x0002 ∧ transferY 0x1400 0x616F = 0x6560 := by decide
/-- V-REN-10 to V-REN-14: fetch addresses. -/
theorem test_fetch_addresses :
    nametableAddress 0x0421 = 0x2421 ∧ attributeAddress 0x00C5 = 0x23C9 ∧ attributeBits 0x00C5 0xE4 = 2 ∧
    attributeAddress 0x0C02 = 0x2FC0 ∧ attributeBits 0x0C02 0xE4 = 1 ∧ bgPatternAddress false 0x01 0 = 0x0010 ∧
    bgPatternAddress true 0xFF 7 + 8 = 0x1FFF := by decide
/-- V-REN-15 to V-REN-19: sprite addresses and the flip. -/
theorem test_sprite_addresses :
    spritePatternAddress Ppu.powerUp 9 { Sprite.cleared with y := 9, tile := 2, attr := 0 } = 0x0020 ∧
    spritePatternAddress { Ppu.powerUp with ctrl := 0x08 } 12 { Sprite.cleared with y := 9, tile := 2, attr := 0x80 } =
      0x1024 ∧
    spritePatternAddress { Ppu.powerUp with ctrl := 0x20 } 10 { Sprite.cleared with y := 0, tile := 3, attr := 0 } =
      0x1032 ∧
    spritePatternAddress { Ppu.powerUp with ctrl := 0x20 } 10 { Sprite.cleared with y := 10, tile := 2, attr := 0x80 } =
      0x0037 ∧
    rev8 0xC1 = 0x83 := by decide
/-- V-REN-20, V-REN-21: the rows on which a sprite matches. -/
theorem test_sprite_match :
    spriteMatches 8 8 9 = false ∧ spriteMatches 8 9 9 = true ∧ spriteMatches 8 16 9 = true ∧ spriteMatches 8 17 9 = false ∧
    spriteMatches 16 24 9 = true ∧ spriteMatches 8 239 0xFF = false := by decide

/-- A word issued right after reset is executed by the next step (V-ENC-14). -/
theorem test_step_runs_word :
    step (State.reset.withFetchWord 28 0x9000000) =
      .next { State.reset with running := false, env := { Env.quiet with operand := .unreadable } } := by rfl
/-- V-ENC-10: a word with a reserved field only sets the mark. -/
theorem test_step_refuses_word :
    step (State.reset.withFetchWord 28 0x0010000) = .next { State.reset with refused := some .reservedField } := by rfl

/-! ## Witnesses: for each obligation with hypotheses, states and operands that meet them -/

/-- A cartridge with one PRG bank, CHR-ROM or CHR-RAM, as a load leaves it. -/
def loadedState (chr : ChrStore) (chrBanks : Byte) : State :=
  { State.reset with
    cart :=
      { Cart.constructed with
        loaded := true, header := some { smallHeader with chrBanks := chrBanks }, prg := List.replicate 16384 0
        chr := chr } }

/-- The same without a PRG bank. -/
def bankless : State :=
  { State.reset with
    cart :=
      { Cart.constructed with
        loaded := true, header := some { smallHeader with prgBanks := 0 }, prg := [], chr := .ram [] } }

theorem chr_unloaded (s : State) (h : s.cart.loaded = false) : Cart.chrInBounds s.cart := by
  intro hl
  rw [h] at hl
  cases hl

theorem chr_ram (c : Cart) (cells : Memory 8) (h : c.chr = .ram cells) : Cart.chrInBounds c := by
  intro _ off hoff
  simp [h, ChrStore.byte?, hoff]

theorem chr_rom : Cart.chrInBounds (loadedState (.rom (List.replicate 8192 0)) 1).cart := by
  intro _ off hoff
  show ((List.replicate 8192 (0 : Byte))[off]?).isSome = true
  rw [List.getElem?_replicate, if_pos hoff]
  rfl

theorem loaded_inv : (loadedState (.ram []) 0).Inv where
  claimed := by constructor <;> rfl
  cart :=
    { callbacks := rfl
      unloaded := by intro h; cases h
      header := fun _ => rfl
      prgLength := fun _ => List.length_replicate
      romLength := by intro b _ h; cases h
      ramCells := by intro cells h; cases h; exact ⟨rfl, rfl, rfl⟩ }
  ppu :=
    { scanlineLow := by decide, scanlineHigh := by decide, cycle := by decide, slots := rfl, spriteCount := by decide
      stale := by decide, oam := ⟨rfl, rfl⟩, pal := ⟨rfl, rfl⟩, fb := ⟨rfl, rfl⟩ }
  wram := rfl
  vram := rfl
  wramSize := fun _ => rfl
  vramSize := fun _ => rfl

theorem witness_DecodeEncodeRoundTrip :
    (Instr.cpuRdWram 0x1FFF).wf = true ∧ (Instr.cpuWrReg7 0x3FFF 0xFF).wf = true ∧ (Instr.ppuRdNt 0x3EFF).wf = true ∧
    (Instr.ppuWrPal 0x3FFF 0xFF).wf = true ∧ (Instr.setRun true).wf = true ∧
    (Instr.reservedOpCF 0xF 0xFF 0xFFFF).wf = true := by decide

theorem witness_EncodeDecodeRoundTrip : decode 0x1FF3FFF = .ok (.cpuWrReg7 0x3FFF 0xFF) := by rfl

theorem witness_ReservedFieldsRefused :
    ∃ s : State, s.env.requests = [⟨0x9020000, .unreadable⟩] ∧ s.fault = none ∧
      (∃ s' : State, s'.env.requests = [⟨0x9010000, .unreadable⟩] ∧ s'.fault = none) :=
  ⟨issueFirst ⟨0x9020000, .unreadable⟩ State.reset, rfl, rfl, issueFirst ⟨0x9010000, .unreadable⟩ State.reset, rfl, rfl⟩

theorem witness_StepRunsDecodedInstruction :
    (∃ s : State, s.fault = none ∧ s.env.requests = [⟨0x6000000, .unreadable⟩] ∧ decode 0x6000000 = .ok .reset) ∧
    State.reset.env.requests = [] ∧
    (∃ s : State, s.fault.isSome = true ∧ s.env.requests = [⟨0x6000000, .unreadable⟩]) :=
  ⟨⟨issueFirst ⟨0x6000000, .unreadable⟩ State.reset, rfl, rfl, rfl⟩, rfl,
    ⟨issueFirst ⟨0x6000000, .unreadable⟩ { State.reset with fault := some .loadUnreadable }, rfl, rfl⟩⟩

theorem witness_WorkRamAndOpenBusRead :
    (0x1FFF : Addr).toNat < 0x2000 ∧ (0x4000 ≤ (0x7FFF : Addr).toNat ∧ (0x7FFF : Addr).toNat < 0x8000) ∧
    (0x8000 ≤ (0x8000 : Addr).toNat ∧ State.reset.cart.loaded = false) := by decide

theorem witness_WorkRamAndOpenBusWrite :
    (0x0000 : Addr).toNat < 0x2000 ∧ (0x4000 ≤ (0x4000 : Addr).toNat ∧ (0x4000 : Addr).toNat < 0x8000) ∧
    (0x8000 ≤ (0xFFFF : Addr).toNat ∧ State.reset.cart.loaded = false) := by decide

theorem witness_DefaultCpuMap :
    State.reset.config = Config.default ∧ (0x1FFF : Addr).toNat < 0x2000 ∧
    (0x4000 ≤ (0x4000 : Addr).toNat ∧ (0x4000 : Addr).toNat < 0x8000) := by decide

theorem witness_PrgRead :
    (0x8000 ≤ (0xFFFF : Addr).toNat ∧ (loadedState (.ram []) 0).cart.loaded = true ∧
      (loadedState (.ram []) 0).cart.header = some smallHeader ∧
      (loadedState (.ram []) 0).cart.prg[(0xFFFF : Addr).toNat % 0x4000]? = some 0) ∧
    (bankless.cart.loaded = true ∧ bankless.cart.header = some { smallHeader with prgBanks := 0 } ∧
      bankless.cart.prg.length ≤ (0x8000 : Addr).toNat % 0x4000) := by
  refine ⟨⟨by decide, rfl, rfl, ?_⟩, rfl, rfl, by decide⟩
  show (List.replicate 16384 (0 : Byte))[(0xFFFF : Addr).toNat % 0x4000]? = some 0
  rw [List.getElem?_replicate, if_pos (by decide)]

theorem witness_PrgWriteDiscarded :
    0x8000 ≤ (0x8000 : Addr).toNat ∧ (loadedState (.ram []) 0).cart.loaded = true := ⟨by decide, rfl⟩

theorem witness_WriteOnlyRegisterRead :
    (([0x2000, 0x2001, 0x2003, 0x2005, 0x3FFE] : List Addr).all (fun a => decide (0x2000 ≤ a.toNat ∧ a.toNat ≤ 0x3FFF)) = true) ∧
    (0x2000 : Addr).toNat % 8 = 0 ∧ (0x2001 : Addr).toNat % 8 = 1 ∧ (0x2003 : Addr).toNat % 8 = 3 ∧
    (0x2005 : Addr).toNat % 8 = 5 ∧ (0x3FFE : Addr).toNat % 8 = 6 := by decide

theorem witness_StatusRead :
    ([0x2002, 0x3FFA] : List Addr).all (fun a => decide (0x2000 ≤ a.toNat ∧ a.toNat ≤ 0x3FFF ∧ a.toNat % 8 = 2)) = true := by decide

theorem witness_OamDataRead :
    ([0x2004, 0x3FFC] : List Addr).all (fun a => decide (0x2000 ≤ a.toNat ∧ a.toNat ≤ 0x3FFF ∧ a.toNat % 8 = 4)) = true := by decide

theorem witness_DataRead :
    (([0x2007, 0x3FFF] : List Addr).all (fun a => decide (0x2000 ≤ a.toNat ∧ a.toNat ≤ 0x3FFF ∧ a.toNat % 8 = 7)) = true) ∧
    (Cart.chrInBounds State.reset.cart ∧ State.reset.config.dataReadBuffered = false) ∧
    (Cart.chrInBounds (loadedState (.ram []) 0).cart ∧
      ({ loadedState (.ram []) 0 with
        config := { Config.default with dataReadBuffered := true } } : State).config.dataReadBuffered = true) :=
  ⟨by decide, ⟨chr_unloaded _ rfl, rfl⟩, chr_ram _ [] rfl, rfl⟩

theorem witness_ControlWrite :
    ([0x2000, 0x3FF8] : List Addr).all (fun a => decide (0x2000 ≤ a.toNat ∧ a.toNat ≤ 0x3FFF ∧ a.toNat % 8 = 0)) = true := by decide

theorem witness_MaskStatusOamAddrWrite :
    (([0x2001, 0x2002, 0x3FFB] : List Addr).all (fun a => decide (0x2000 ≤ a.toNat ∧ a.toNat ≤ 0x3FFF)) = true) ∧
    (0x2001 : Addr).toNat % 8 = 1 ∧ (0x2002 : Addr).toNat % 8 = 2 ∧ (0x3FFB : Addr).toNat % 8 = 3 := by decide

theorem witness_OamDataWrite :
    ([0x2004, 0x3FFC] : List Addr).all (fun a => decide (0x2000 ≤ a.toNat ∧ a.toNat ≤ 0x3FFF ∧ a.toNat % 8 = 4)) = true := by decide

theorem witness_ScrollWrite :
    (([0x2005, 0x3FFD] : List Addr).all (fun a => decide (0x2000 ≤ a.toNat ∧ a.toNat ≤ 0x3FFF ∧ a.toNat % 8 = 5)) = true) ∧
    State.reset.ppu.w = false ∧ (withPpu { Ppu.powerUp with w := true }).ppu.w = true := by decide

theorem witness_AddressWrite :
    (([0x2006, 0x3FFE] : List Addr).all (fun a => decide (0x2000 ≤ a.toNat ∧ a.toNat ≤ 0x3FFF ∧ a.toNat % 8 = 6)) = true) ∧
    State.reset.ppu.w = false ∧ (withPpu { Ppu.powerUp with w := true }).ppu.w = true := by decide

theorem witness_DataWrite :
    (([0x2007, 0x3FFF] : List Addr).all (fun a => decide (0x2000 ≤ a.toNat ∧ a.toNat ≤ 0x3FFF ∧ a.toNat % 8 = 7)) = true) ∧
    State.reset.ppuCell 0x2001 ≠ State.reset.ppuCell 0x2000 ∧ State.reset.ppuCell 0x3F00 ≠ State.reset.ppuCell 0x3EFF := by
  decide

theorem witness_RegisterMirroring :
    (([0x2008, 0x3FFF] : List Addr).all (fun a => decide (0x2008 ≤ a.toNat ∧ a.toNat ≤ 0x3FFF)) = true) ∧
    decode (assembleWord 0x0 0 0x200A) = .ok (.cpuRdReg2 0x200A) ∧
    decode (assembleWord 0x0 0 0x2002) = .ok (.cpuRdReg2 0x2002) ∧
    decode (assembleWord 0x1 0x80 0x2008) = .ok (.cpuWrReg0 0x2008 0x80) ∧
    decode (assembleWord 0x1 0x80 0x2000) = .ok (.cpuWrReg0 0x2000 0x80) := ⟨by decide, rfl, rfl, rfl, rfl⟩

theorem witness_ToggleClearedOnlyBy :
    let s := withPpu { Ppu.powerUp with w := true }
    (Instr.cpuWrReg6 0x2006 0x10).wf = true ∧ s.ppu.w = true ∧
      ∃ t, exec (.cpuWrReg6 0x2006 0x10) s = .next t ∧ t.ppu.w = false :=
  ⟨rfl, rfl, _, rfl, rfl⟩

/-- A running system step whose batch reads Status at the last mirror clears the toggle. -/
theorem witness_ToggleClearedOnlyBy_sysStep :
    let s : State :=
      { withPpu { Ppu.powerUp with w := true } with env := { Env.quiet with cpuBatches := [[.read 0x3FFA]] } }
    s.ppu.w = true ∧ s.running = true ∧ CpuTxn.touchesToggle (.read 0x3FFA) ∧
      ∃ t, exec .sysStep s = .next t ∧ t.ppu.w = false :=
  ⟨rfl, rfl, ⟨by decide, by decide, by decide⟩, _, rfl, rfl⟩

theorem witness_PaletteRead :
    ([0x3F00, 0x3F10, 0x3FFF] : List Addr).all (fun a => decide (0x3F00 ≤ a.toNat ∧ a.toNat ≤ 0x3FFF)) = true := by decide

theorem witness_PaletteWrite :
    ([0x3F00, 0x3F1C, 0x3FFF] : List Addr).all (fun a => decide (0x3F00 ≤ a.toNat ∧ a.toNat ≤ 0x3FFF)) = true := by decide

theorem witness_NametableRead :
    ([0x2000, 0x3EFF] : List Addr).all (fun a => decide (0x2000 ≤ a.toNat ∧ a.toNat < 0x3F00)) = true := by decide

theorem witness_NametableWrite :
    ([0x2000, 0x3EFF] : List Addr).all (fun a => decide (0x2000 ≤ a.toNat ∧ a.toNat < 0x3F00)) = true := by decide

theorem witness_DefaultNametableMap :
    Config.default.nametableMap = .byHeader ∧
    ((withCart (.ram [])).cart.loaded = true ∧ (withCart (.ram [])).cart.header = some smallHeader ∧
      smallHeader.mirroring = true) ∧
    State.reset.cart.loaded = false := by decide

theorem witness_ChrRead :
    (0x1FFF : Addr).toNat < 0x2000 ∧ (withCart (.rom [0x07])).cart.loaded = true ∧
    ([0x07] : List Byte)[(0x0000 : Addr).toNat]? = some 0x07 ∧ ([0x07] : List Byte).length ≤ (0x0001 : Addr).toNat ∧
    (withCart (.ram [])).cart.chr = .ram [] ∧ State.reset.cart.loaded = false := by decide

theorem witness_ChrWrite :
    (0x1FFF : Addr).toNat < 0x2000 ∧ (withCart (.rom [0x07])).cart.loaded = true ∧
    (withCart (.rom [0x07])).cart.chr = .rom [0x07] ∧ (withCart (.ram [])).cart.chr = .ram [] ∧
    State.reset.cart.loaded = false := by decide

/-- The shortest image, its NES 2.0 bits set. -/
def nes2Image : List Byte := [0x4E, 0x45, 0x53, 0x1A, 0, 0, 0, 0x08, 0, 0, 0, 0, 0, 0, 0, 0]

theorem witness_LoadCompletes :
    State.reset.cart.loaded = false ∧ State.reset.cart.callbacks = [.onCartridgeLoaded] ∧
    (withImage (.bytes nes2Image)).env.operand = .bytes nes2Image ∧ 16 ≤ nes2Image.length ∧
    nes2Image.take 4 = [0x4E, 0x45, 0x53, 0x1A] ∧ State.reset.config.nes2Policy = .parseAsINES ∧
    (16 + if (nes2Image.getD 6 0).getLsbD 2 then 512 else 0) + 16384 * (nes2Image.getD 4 0).toNat +
      8192 * (nes2Image.getD 5 0).toNat ≤ nes2Image.length := by decide

theorem witness_LoadStops :
    (withCart (.ram [])).cart.loaded = true ∧
    ((withImage .unreadable).cart.loaded = false ∧ (withImage .unreadable).env.operand = .unreadable) ∧
    (nes2Image.take 15).length < 16 ∧ (List.replicate 16 (0 : Byte)).take 4 ≠ [0x4E, 0x45, 0x53, 0x1A] ∧
    ((nes2Image.getD 7 0).toNat / 4 % 4 = 2 ∧
      ({ State.reset with config := { Config.default with nes2Policy := .refuse } } : State).config.nes2Policy = .refuse) ∧
    (nes2Image.set 4 1).length < 16 + 16384 * ((nes2Image.set 4 1).getD 4 0).toNat := by decide

theorem witness_CartridgeImmutable :
    (Instr.ppuWrChr 0x0000 0xAA).wf = true ∧ (withCart (.ram [])).cart.loaded = true ∧
    (∃ t, exec (.ppuWrChr 0x0000 0xAA) (withCart (.ram [])) = .next t) ∧
    (∃ t, exec .reset (withCart (.rom [0x07])) = .next t) := ⟨rfl, rfl, ⟨_, rfl⟩, _, rfl⟩

theorem bankless_inv : bankless.Inv where
  claimed := by constructor <;> rfl
  cart :=
    { callbacks := rfl
      unloaded := by intro h; cases h
      header := fun _ => rfl
      prgLength := fun _ => rfl
      romLength := by intro b _ h; cases h
      ramCells := by intro cells h; cases h; exact ⟨rfl, rfl, rfl⟩ }
  ppu :=
    { scanlineLow := by decide, scanlineHigh := by decide, cycle := by decide, slots := rfl, spriteCount := by decide
      stale := by decide, oam := ⟨rfl, rfl⟩, pal := ⟨rfl, rfl⟩, fb := ⟨rfl, rfl⟩ }
  wram := rfl
  vram := rfl
  wramSize := fun _ => rfl
  vramSize := fun _ => rfl

theorem witness_OffsetsInBounds :
    ((loadedState (.ram []) 0).Inv ∧ (loadedState (.ram []) 0).cart.loaded = true ∧ 0x8000 ≤ (0x8000 : Addr).toNat) ∧
    (bankless.Inv ∧ bankless.cart.loaded = true) ∧
    (∃ t, step (issueFirst ⟨0x0008000, .unreadable⟩ bankless) = .next t ∧ bankless.fault = none ∧
      t.fault = some (.mapperOffsetOutOfBounds 0x8000 0)) :=
  ⟨⟨loaded_inv, rfl, by decide⟩, ⟨bankless_inv, rfl⟩, _, rfl, rfl, rfl⟩

theorem witness_ResetAndPowerOn : (withCart (.ram [])).cart.loaded = true ∧ State.reset.cart.loaded = false := by decide

theorem witness_RunTogglesOnlyStepping :
    (after (.setRun false) State.reset).running = false ∧ Instr.ppuClock ≠ .sysStep ∧
    (∀ r, Instr.ppuClock ≠ .setRun r) := ⟨rfl, by decide, fun r h => by cases h⟩

theorem witness_SystemStep : State.reset.running = true ∧ Cart.chrInBounds State.reset.cart :=
  ⟨rfl, chr_unloaded _ rfl⟩

theorem witness_BatchRunsCpuWords :
    State.reset.fault = none ∧ (∃ t, exec (decodeCpuRead 0x5000) State.reset = .next t) ∧
    (∃ t, exec (decodeCpuWrite 0x2000 0x80) State.reset = .next t) := ⟨rfl, ⟨_, rfl⟩, _, rfl⟩

theorem witness_StatusReadInVblankStep :
    let s : State :=
      { withPpu { Ppu.powerUp with scanline := 240, cycle := 340, ctrl := 0x80 } with
        env := { Env.quiet with cpuBatches := [[.read 0x2002]] } }
    s.running = true ∧ Cart.chrInBounds s.cart ∧ s.ppu.scanline = 240 ∧ s.ppu.cycle = 340 ∧
      s.ppu.ctrl.getLsbD 7 = true ∧ s.env.cpuBatches = [.read 0x2002] :: [] ∧
      ((atDot 241 0).ppu.scanline = 241 ∧ (atDot 241 0).ppu.cycle = 0) ∧ (atDot 241 1).ppu.cycle = 1 :=
  ⟨rfl, chr_unloaded _ rfl, rfl, rfl, rfl, rfl, ⟨rfl, rfl⟩, rfl⟩

/-- A dot of every kind, with CHR in bounds: the hypotheses of the statements about one clock. -/
theorem dot_chr (l : Int) (c : Nat) : Cart.chrInBounds (atDot l c).cart := chr_unloaded _ rfl

theorem witness_ClockAdvances :
    (Cart.chrInBounds (atDot 5 339).cart ∧ (atDot 5 339).ppu.cycle ≠ 340) ∧
    (Cart.chrInBounds (atDot 5 340).cart ∧ (atDot 5 340).ppu.scanline ≠ 260) ∧
    (Cart.chrInBounds (atDot 260 340).cart ∧ (atDot 260 340).ppu.cycle = 340 ∧ (atDot 260 340).ppu.scanline = 260) :=
  ⟨⟨dot_chr _ _, by decide⟩, ⟨dot_chr _ _, by decide⟩, dot_chr _ _, rfl, rfl⟩

theorem witness_ClockFrame :
    Cart.chrInBounds (loadedState (.rom (List.replicate 8192 0)) 1).cart ∧ ¬ (atDot 0 257).ppu.onScreen ∧
    (atDot 0 256).ppu.onScreen := ⟨chr_rom, by decide, by decide⟩

/-- A dot of the fetch window meets every premise of the clauses about flags, request and sprite count. -/
theorem witness_ClockFrame_flags :
    let s := withPpu { Ppu.powerUp with scanline := 0, cycle := 264, status := 0xE0 }
    Cart.chrInBounds s.cart ∧ ¬ s.ppu.vblankDot ∧ ¬ s.ppu.preRenderDot ∧ ¬ s.ppu.onScreen ∧ ¬ s.ppu.evaluationDot ∧
      s.ppu.status.getLsbD 6 = true ∧ ¬ (atDot 241 2).ppu.vblankDot ∧ ¬ (atDot 240 257).ppu.evaluationDot ∧
      ¬ (atDot 0 1).ppu.preRenderDot :=
  ⟨chr_unloaded _ rfl, by decide, by decide, by decide, by decide, by decide, by decide, by decide, by decide⟩

theorem witness_UntriggeredDot :
    ¬ (atDot 0 0).ppu.triggered ∧ ¬ (atDot 0 1).ppu.triggered ∧ ¬ (atDot (-1) 279).ppu.triggered ∧
    ¬ (atDot 239 338).ppu.triggered ∧ ¬ (atDot 240 1).ppu.triggered ∧ ¬ (atDot 260 340).ppu.triggered ∧
    (atDot 0 1).ppu.onScreen ∧ ¬ (atDot 0 0).ppu.onScreen :=
  ⟨by decide, by decide, by decide, by decide, by decide, by decide, by decide, by decide⟩

theorem witness_PreRenderClear : (atDot (-1) 1).ppu.scanline = -1 ∧ (atDot (-1) 1).ppu.cycle = 1 := ⟨rfl, rfl⟩

theorem witness_VblankStart : (atDot 241 1).ppu.vblankDot := ⟨rfl, rfl⟩

/-- A request raised by the vblank clock, and one cleared by its delivery and by a reset. -/
theorem witness_VblankStart_request :
    let s := withPpu { Ppu.powerUp with scanline := 241, cycle := 1, ctrl := 0x80 }
    let r := withPpu { Ppu.powerUp with scanline := 241, cycle := 2, nmiPending := true }
    (s.ppu.nmiPending = false ∧ ∃ t, exec .ppuClock s = .next t ∧ t.ppu.nmiPending = true) ∧
    (r.ppu.nmiPending = true ∧ (∃ t, exec .sysStep r = .next t ∧ t.ppu.nmiPending = false) ∧
      ∃ t, exec .reset r = .next t ∧ t.ppu.nmiPending = false) :=
  ⟨⟨rfl, _, rfl, rfl⟩, rfl, ⟨_, rfl, rfl⟩, _, rfl, rfl⟩

theorem witness_BackgroundShiftAndLoad :
    Cart.chrInBounds (atDot 0 2).cart ∧ (atDot 0 2).ppu.inWindow ∧ (atDot (-1) 257).ppu.inWindow ∧
    (atDot 239 337).ppu.inWindow ∧ ¬ (atDot 0 1).ppu.inWindow ∧ ¬ (atDot 240 2).ppu.inWindow :=
  ⟨dot_chr _ _, by decide, by decide, by decide, by decide, by decide⟩

theorem witness_SpriteShift :
    Cart.chrInBounds (atDot (-1) 2).cart ∧
    ([((-1 : Int), 2), (239, 257), (0, 258), (239, 339)].all (fun q =>
      decide ((-1 ≤ (atDot q.1 q.2).ppu.scanline ∧ (atDot q.1 q.2).ppu.scanline ≤ 239) ∧
        (2 ≤ (atDot q.1 q.2).ppu.cycle ∧ (atDot q.1 q.2).ppu.cycle ≤ 339)))) = true := ⟨dot_chr _ _, by decide⟩

theorem witness_BackgroundFetches :
    Cart.chrInBounds (loadedState (.ram []) 0).cart ∧ (atDot 0 9).ppu.inWindow ∧ ((atDot 0 9).ppu.cycle - 1) % 8 = 0 ∧
    (atDot 239 337).ppu.cycle ≠ 340 ∧ (atDot 239 339).ppu.cycle ≠ 340 ∧ ¬ (atDot 239 339).ppu.inWindow :=
  ⟨chr_ram _ [] rfl, by decide, by decide, by decide, by decide, by decide⟩

theorem witness_ScrollUpdates :
    let s := withPpu { Ppu.powerUp with mask := 0x08, scanline := -1, cycle := 304 }
    Cart.chrInBounds s.cart ∧ s.ppu.rendering := ⟨chr_unloaded _ rfl, by decide⟩

theorem witness_SpriteEvaluation :
    Cart.chrInBounds (atDot 239 257).cart ∧ (0 ≤ (atDot 239 257).ppu.scanline ∧ (atDot 239 257).ppu.scanline ≤ 239) ∧
    (atDot 239 257).ppu.cycle = 257 ∧ (atDot 239 257).ppu.sprites.length = 8 :=
  ⟨dot_chr _ _, by decide, by decide, by decide⟩

theorem witness_SpriteFetch :
    let s := withPpu { Ppu.powerUp with scanline := 0, cycle := 340, spriteCount := 1 }
    Cart.chrInBounds s.cart ∧ (0 ≤ s.ppu.scanline ∧ s.ppu.scanline ≤ 239) ∧ s.ppu.cycle = 340 ∧
      s.ppu.sprites[0]? = some Sprite.cleared ∧ 0 < s.ppu.spriteCount ∧ s.ppu.spriteCount = 0 + 1 ∧
      (atDot 239 340).ppu.spriteCount = 0 :=
  ⟨chr_unloaded _ rfl, by decide, rfl, rfl, by decide, rfl, rfl⟩

/-- One PPU for each clause: both layers shown with an armed sprite, both off, both clipped. -/
theorem witness_PixelSelection :
    let shown : Ppu :=
      { Ppu.powerUp with
        mask := 0x1E, cycle := 3, spriteCount := 1, sprites := [{ Sprite.cleared with x := 0, shLo := 0x80 }] }
    let clipped : Ppu := { Ppu.powerUp with mask := 0x18, cycle := 8 }
    (shown.mask.getLsbD 3 = true ∧ ¬ ((1 ≤ shown.cycle ∧ shown.cycle ≤ 8) ∧ shown.mask.getLsbD 1 = false)) ∧
    (shown.mask.getLsbD 4 = true ∧ ¬ ((1 ≤ shown.cycle ∧ shown.cycle ≤ 8) ∧ shown.mask.getLsbD 2 = false)) ∧
    (0 < shown.spriteCount ∧ shown.sprites[0]? = some { Sprite.cleared with x := 0, shLo := 0x80 }) ∧
    Ppu.powerUp.mask.getLsbD 3 = false ∧
    ((1 ≤ clipped.cycle ∧ clipped.cycle ≤ 8) ∧ clipped.mask.getLsbD 1 = false ∧ clipped.mask.getLsbD 2 = false) := by
  decide

theorem witness_PixelComposition :
    Cart.chrInBounds (atDot 0 1).cart ∧ (atDot 0 1).ppu.onScreen ∧ (atDot 239 256).ppu.onScreen :=
  ⟨dot_chr _ _, by decide, by decide⟩

theorem witness_FrameWithRenderingDisabled :
    Cart.chrInBounds State.reset.cart ∧ State.reset.ppu.scanline = -1 ∧ State.reset.ppu.cycle = 0 ∧
    ¬ State.reset.ppu.rendering := ⟨chr_unloaded _ rfl, rfl, rfl, by decide⟩

theorem witness_OddFrameSkip :
    let even : State := withPpu { Ppu.powerUp with mask := 0x08 }
    let odd : State := withPpu { Ppu.powerUp with mask := 0x08, cycle := 1, oddFrame := true }
    (Cart.chrInBounds even.cart ∧ even.ppu.scanline = -1 ∧ even.ppu.rendering ∧ even.ppu.cycle = 0 ∧
      even.ppu.oddFrame = false) ∧
    (Cart.chrInBounds odd.cart ∧ odd.ppu.scanline = -1 ∧ odd.ppu.rendering ∧ odd.ppu.cycle = 1 ∧
      odd.ppu.oddFrame = true) :=
  ⟨⟨chr_unloaded _ rfl, rfl, by decide, rfl, rfl⟩, chr_unloaded _ rfl, rfl, by decide, rfl, rfl⟩

theorem witness_StepKeepsInvariant :
    (loadedState (.ram []) 0).Inv ∧ ∃ t, step (loadedState (.ram []) 0) = .next t := ⟨loaded_inv, _, rfl⟩

theorem witness_MarksAndConfigKept :
    ({ State.reset with fault := some .loadUnreadable } : State).fault.isSome = true ∧
    ({ State.reset with refused := some .reservedOp } : State).refused.isSome = true := by decide

/-! Each further clause of the statements above, at a boundary of its range. -/

theorem witness_PrgRead_declined :
    (0x7FFF : Addr).toNat < 0x8000 ∧ (0x8000 ≤ (0x8000 : Addr).toNat ∧ State.reset.cart.loaded = false) := by decide

theorem witness_ChrRead_declined :
    0x2000 ≤ (0x2000 : Addr).toNat ∧ ((0x1FFF : Addr).toNat < 0x2000 ∧ State.reset.cart.loaded = false) := by decide

theorem witness_LoadCompletes_truncated :
    (withImage (.bytes (nes2Image.set 4 1))).env.operand = .bytes (nes2Image.set 4 1) ∧
    (nes2Image.set 4 1).take 4 = [0x4E, 0x45, 0x53, 0x1A] ∧
    (nes2Image.set 4 1).length < 16 + 16384 * ((nes2Image.set 4 1).getD 4 0).toNat := by decide

theorem witness_LoadStops_completes :
    State.reset.cart.loaded = false ∧ (withImage (.bytes nes2Image)).env.operand = .bytes nes2Image ∧
    State.reset.config.nes2Policy ≠ .refuse ∧ 16 ≤ nes2Image.length := by decide

theorem witness_SystemStep_paused :
    ({ State.reset with running := false } : State).running = false := rfl

theorem witness_PixelComposition_blank :
    Cart.chrInBounds (atDot 240 1).cart ∧ ¬ (atDot 240 1).ppu.onScreen ∧ ¬ (atDot 0 0).ppu.onScreen ∧
    ¬ (atDot 239 257).ppu.onScreen ∧ ¬ (atDot (-1) 1).ppu.onScreen :=
  ⟨dot_chr _ _, by decide, by decide, by decide, by decide⟩

/-! ## Script lines (30 R102) -/

theorem test_script_setaddr :
    ((ScriptLine.setAddr 0x3F 0x01).requests State.reset).map (·.word) = [0x13F2006, 0x1012006] := by decide

theorem test_script_oamw :
    ((ScriptLine.oamW 0x10 [0xAA]).requests State.reset).map (·.word) = [0x1102003, 0x1AA2004] := by decide

end Sys2Proof.Tests
end

section
/-!
SUPPORT. One step by cases of the word it takes (spec 30 R92, 60 R291), and what no operation but a load, a refusal and the
run toggle changes: the refusal mark, the parameters, and the cartridge up to the contents of CHR-RAM.
-/
namespace Sys2Proof.Machine

/-! ## One step -/

/-- A step idles, ignores its word, refuses it, or executes its instruction (30 R92, 60 R291; assumptions 1 and 3). -/
theorem step_cases (s : State) :
    (s.env.requests = [] ∧ step s = .next s) ∨
    ∃ r rest, s.env.requests = r :: rest ∧
      ((s.fault.isSome = true ∧ step s = .next (takeRequest r rest s)) ∨
       (s.fault = none ∧ decode r.word = .error .reservedField ∧
          step s = .next (refuse .reservedField (takeRequest r rest s))) ∨
       (s.fault = none ∧ ∃ i, decode r.word = .ok i ∧ step s = exec i (takeRequest r rest s))) := by
  cases hr : s.env.requests with
  | nil => exact .inl ⟨rfl, by simp [step, fetchWord, hr]⟩
  | cons r rest =>
    refine .inr ⟨r, rest, rfl, ?_⟩
    cases hf : s.fault with
    | some f => exact .inl ⟨rfl, by simp [step, fetchWord, hr, hf]⟩
    | none =>
      cases hd : decode r.word with
      | error e => cases e; exact .inr (.inl ⟨rfl, rfl, by simp [step, fetchWord, hr, hf, hd]⟩)
      | ok i => exact .inr (.inr ⟨rfl, i, rfl, by simp [step, fetchWord, hr, hf, hd]⟩)

/-! ## Operations that keep the setup -/

/-- `t` has the refusal mark and the parameters of `s`, and its cartridge but for the contents of CHR. -/
structure State.SameSetup (s t : State) : Prop where
  refused : t.refused = s.refused
  config : t.config = s.config
  cart : t.cart = { s.cart with chr := t.cart.chr }

theorem State.SameSetup.refl (s : State) : s.SameSetup s := ⟨rfl, rfl, rfl⟩

theorem State.SameSetup.trans {s t u : State} (h : s.SameSetup t) (h' : t.SameSetup u) : s.SameSetup u :=
  ⟨h'.refused.trans h.refused, h'.config.trans h.config, by rw [h'.cart, h.cart]⟩

theorem State.SameOutside.sameSetup {s t : State} (h : s.SameOutside t) : s.SameSetup t :=
  ⟨h.refused, h.config, by rw [h.cart]⟩

theorem State.mapPpu_sameSetup (f : Ppu → Ppu) (s : State) : s.SameSetup (s.mapPpu f) := ⟨rfl, rfl, rfl⟩

theorem ppuStore_sameSetup (s : State) (a : Addr) (d : Byte) : s.SameSetup (s.ppuStore a d) := by
  unfold State.ppuStore
  simp only
  split
  · exact ⟨rfl, rfl, rfl⟩
  · split <;> exact ⟨rfl, rfl, rfl⟩

theorem ppuWrite_sameSetup (a : Addr) (d : Byte) (s : State) : s.SameSetup (ppuWrite a d s) :=
  ppuWrite_eq a d s ▸ ppuStore_sameSetup s a d

theorem replyWith_ppuRead_sameSetup (a : Addr) (s : State) : s.SameSetup (endState (replyWith (ppuRead a s))) := by
  rcases ppuRead_sameOutside a s with ⟨b, t, h, ht⟩ | ⟨t, h, ht⟩ <;> rw [h]
  · exact ht.sameSetup.trans ⟨rfl, rfl, rfl⟩
  · exact ht.sameSetup

theorem readRegister_sameSetup (r : Nat) (s : State) : s.SameSetup (endState (replyWith (readRegister r s))) := by
  unfold readRegister
  split
  · exact ⟨rfl, rfl, rfl⟩
  · exact ⟨rfl, rfl, rfl⟩
  · unfold readData
    rcases ppuRead_sameOutside (Loopy.ppuAddress s.ppu.v) s with ⟨b, t, h, ht⟩ | ⟨t, h, ht⟩ <;> simp only [h]
    · split <;> exact ht.sameSetup.trans ⟨rfl, rfl, rfl⟩
    · exact ht.sameSetup
  · exact ⟨rfl, rfl, rfl⟩

theorem writeRegister_sameSetup (r : Nat) (d : Byte) (s : State) : s.SameSetup (writeRegister r d s) := by
  unfold writeRegister
  split
  case h_8 => exact (ppuWrite_sameSetup (Loopy.ppuAddress s.ppu.v) d s).trans (State.mapPpu_sameSetup _ _)
  all_goals exact ⟨rfl, rfl, rfl⟩

/-- A CPU transaction keeps the setup, abandoned or not. -/
theorem cpuTransaction_sameSetup (txn : CpuTxn) (s : State) : s.SameSetup (endState (cpuTransaction txn s)) := by
  have hp : s.SameSetup s.ppuClaims := ⟨rfl, rfl, rfl⟩
  cases txn with
  | read a =>
    by_cases ha : 0x2000 ≤ a.toNat ∧ a.toNat ≤ 0x3FFF
    · rw [cpuTransaction, cpuBusRead_register a s ha.1 ha.2]
      exact hp.trans (readRegister_sameSetup _ _)
    · rw [cpuTransaction, cpuBusRead_memory a s (by omega)]
      split
      · split <;> exact ⟨rfl, rfl, rfl⟩
      · exact ⟨rfl, rfl, rfl⟩
      · exact ⟨rfl, rfl, rfl⟩
  | write a d =>
    by_cases ha : 0x2000 ≤ a.toNat ∧ a.toNat ≤ 0x3FFF
    · rw [cpuTransaction, cpuBusWrite_register a d s ha.1 ha.2]
      exact hp.trans (writeRegister_sameSetup _ d _)
    · rw [cpuTransaction, cpuBusWrite_memory a d s (by omega)]
      split <;> exact ⟨rfl, rfl, rfl⟩

theorem runBatch_sameSetup (txns : List CpuTxn) : ∀ s : State, s.SameSetup (endState (runBatch txns s)) := by
  induction txns with
  | nil => exact State.SameSetup.refl
  | cons txn txns ih =>
    intro s
    have h := cpuTransaction_sameSetup txn s
    unfold runBatch
    cases ht : cpuTransaction txn s with
    | error t => rw [ht] at h; exact h
    | ok t => rw [ht] at h; exact State.SameSetup.trans h (ih t)

theorem clock_sameSetup (s : State) : s.SameSetup (endState (clock s)) :=
  (s.mapPpu_sameSetup _).trans (clock_sameOutside s).sameSetup

theorem clocks_sameSetup (n : Nat) : ∀ s : State, s.SameSetup (endState (clocks n s)) := by
  induction n with
  | zero => exact State.SameSetup.refl
  | succ n ih =>
    intro s
    have h := clock_sameSetup s
    unfold clocks
    cases hc : clock s with
    | error t => rw [hc] at h; exact h
    | ok t => rw [hc] at h; exact State.SameSetup.trans h (ih t)

theorem deliverNmi_sameSetup (s : State) : s.SameSetup (deliverNmi s) := by
  unfold deliverNmi
  split <;> exact ⟨rfl, rfl, rfl⟩

theorem cpuClock_sameSetup (s : State) : s.SameSetup (endState (cpuClock s)) := by
  have hcall : s.SameSetup (callCpu .clock (dropBatch s)) := ⟨rfl, rfl, rfl⟩
  exact hcall.trans (runBatch_sameSetup (nextBatch s) _)

theorem systemStep_sameSetup (s : State) : s.SameSetup (endState (systemStep s)) := by
  unfold systemStep
  split
  · have h := clocks_sameSetup 3 s
    cases hc : clocks 3 s with
    | error t => rw [hc] at h; exact h
    | ok t => rw [hc] at h; exact (State.SameSetup.trans h (deliverNmi_sameSetup t)).trans (cpuClock_sameSetup _)
  · exact .refl s

theorem resetBoth_sameSetup (s : State) : s.SameSetup (resetBoth s) := ⟨rfl, rfl, rfl⟩

theorem runCallbacks_sameSetup (cbs : List Callback) : ∀ s : State, s.SameSetup (runCallbacks cbs s) := by
  induction cbs with
  | nil => exact State.SameSetup.refl
  | cons cb cbs ih =>
    intro s
    cases cb
    exact (resetBoth_sameSetup s).trans (ih (resetBoth s))

/-! ## What every operation keeps -/

/-- A refusal marked in `s` is still marked in `t`, and the parameters and the wiring of callbacks are the same. -/
structure State.KeepsMarks (s t : State) : Prop where
  refused : s.refused.isSome = true → t.refused.isSome = true
  config : t.config = s.config
  callbacks : t.cart.callbacks = s.cart.callbacks

theorem State.SameSetup.keepsMarks {s t : State} (h : s.SameSetup t) : s.KeepsMarks t :=
  ⟨fun hr => h.refused ▸ hr, h.config, by rw [h.cart]⟩

theorem refuse_keepsMarks (r : Refusal) (s : State) : s.KeepsMarks (refuse r s) := ⟨fun _ => rfl, rfl, rfl⟩

theorem raiseFault_keepsMarks (f : Fault) (s : State) : s.KeepsMarks (raiseFault f s) := ⟨id, rfl, rfl⟩

/-- A load changes the cartridge but for its callbacks, which it then runs (41 R166, R169). -/
theorem commitLoad_keepsMarks (h : Header) (b : List Byte) (s : State) : s.KeepsMarks (commitLoad h b s) := by
  have hc := (runCallbacks_sameSetup s.cart.callbacks { s with cart := s.cart.populate h b }).keepsMarks
  exact ⟨hc.refused, hc.config, hc.callbacks⟩

theorem loadBytes_keepsMarks (b : List Byte) (s : State) : s.KeepsMarks (endState (loadBytes b s)) := by
  unfold loadBytes
  split
  · exact raiseFault_keepsMarks _ s
  split
  · exact raiseFault_keepsMarks _ s
  simp only
  split
  · exact refuse_keepsMarks _ s
  split
  · exact raiseFault_keepsMarks _ s
  · exact commitLoad_keepsMarks _ b s

theorem loadCartridge_keepsMarks (img : Image) (s : State) : s.KeepsMarks (endState (loadCartridge img s)) := by
  unfold loadCartridge
  split
  · exact refuse_keepsMarks _ s
  · cases img with
    | unreadable => exact raiseFault_keepsMarks _ s
    | bytes b => exact loadBytes_keepsMarks b s

theorem powerOn_sameSetup (s : State) : s.SameSetup (powerOn s) := by
  unfold powerOn
  split
  · exact resetBoth_sameSetup s
  · exact .refl s

/-- Every instruction answers a next state that keeps the marks (assumption 3). -/
theorem exec_keepsMarks (i : Instr) (s : State) : ∃ t, exec i s = .next t ∧ s.KeepsMarks t := by
  cases i with
  | cpuRdWram a | cpuRdReg0 a | cpuRdReg1 a | cpuRdReg2 a | cpuRdReg3 a | cpuRdReg4 a | cpuRdReg5 a | cpuRdReg6 a
  | cpuRdReg7 a | cpuRdOpen a | cpuRdPrg a => exact ⟨_, rfl, (cpuTransaction_sameSetup (.read a) s).keepsMarks⟩
  | cpuWrWram a d | cpuWrReg0 a d | cpuWrReg1 a d | cpuWrReg2 a d | cpuWrReg3 a d | cpuWrReg4 a d | cpuWrReg5 a d
  | cpuWrReg6 a d | cpuWrReg7 a d | cpuWrOpen a d | cpuWrPrg a d =>
    exact ⟨_, rfl, (cpuTransaction_sameSetup (.write a d) s).keepsMarks⟩
  | ppuRdChr a | ppuRdNt a | ppuRdPal a => exact ⟨_, rfl, (replyWith_ppuRead_sameSetup a s).keepsMarks⟩
  | ppuWrChr a d | ppuWrNt a d | ppuWrPal a d => exact ⟨_, rfl, (ppuWrite_sameSetup a d s).keepsMarks⟩
  | ppuClock => exact ⟨_, rfl, (clock_sameSetup s).keepsMarks⟩
  | sysStep => exact ⟨_, rfl, (systemStep_sameSetup s).keepsMarks⟩
  | reset => exact ⟨_, rfl, (resetBoth_sameSetup s).keepsMarks⟩
  | powerOn => exact ⟨_, rfl, (powerOn_sameSetup s).keepsMarks⟩
  | loadCart => exact ⟨_, rfl, loadCartridge_keepsMarks s.env.operand s⟩
  | setRun run => exact ⟨_, rfl, id, rfl, rfl⟩
  | reservedOpAB op d a | reservedOpCF op d a => exact ⟨_, rfl, refuse_keepsMarks .reservedOp s⟩

/-- Settles O59, by the cases of a step: a faulted state executes no word, and every instruction keeps the rest. -/
theorem marksAndConfigKept : Obligations.MarksAndConfigKept := by
  unfold Obligations.MarksAndConfigKept
  intro s
  rcases step_cases s with ⟨-, h⟩ | ⟨r, rest, -, ⟨-, h⟩ | ⟨hf, -, h⟩ | ⟨hf, i, -, h⟩⟩
  · exact ⟨s, h, fun _ => rfl, id, rfl, rfl⟩
  · exact ⟨_, h, fun _ => rfl, id, rfl, rfl⟩
  · exact ⟨_, h, fun _ => rfl, fun _ => rfl, rfl, rfl⟩
  · obtain ⟨t, ht, hk⟩ := exec_keepsMarks i (takeRequest r rest s)
    exact ⟨t, h.trans ht, by simp [hf], hk.refused, hk.config, hk.callbacks⟩

end Sys2Proof.Machine
end

section
/-!
SUPPORT. The resets as equations (spec 10 R44, 44 R272-R277), and the state as constructed (10 R45, 70 R311).
-/
namespace Sys2Proof.Machine

/-! ## RESET and POWER_ON -/

theorem exec_reset (s : State) : exec .reset s = .next (resetBoth s) := rfl

/-- POWER_ON resets exactly when a cartridge is loaded (44 R272). -/
theorem exec_powerOn (s : State) : exec .powerOn s = .next (if s.cart.loaded then resetBoth s else s) := rfl

/-- A second reset finds every register of 10 R44 at its value already. -/
theorem resetBoth_resetBoth (s : State) : resetBoth (resetBoth s) = callCpu .reset (resetBoth s) := rfl

/-- Settles O35, from the reset as one equation and its idempotence but for the call log. -/
theorem resetAndPowerOn : Obligations.ResetAndPowerOn := by
  unfold Obligations.ResetAndPowerOn
  intro s
  refine ⟨exec_reset s, fun hl => ?_, fun hl => ?_, ?_⟩
  · rw [exec_powerOn, if_pos hl]; rfl
  · simp [exec_powerOn, hl]
  · exact (exec_reset (resetBoth s)).trans (congrArg _ (resetBoth_resetBoth s))

/-! ## Construction -/

theorem noneClaimed_inv : Claims.Inv Claims.noneClaimed where
  cartCpuPpu := rfl
  cartCpuWorkRam := rfl
  ppuWorkRam := rfl
  cartPpuVideoRam := rfl

theorem constructed_inv : Cart.Inv Cart.constructed where
  callbacks := rfl
  unloaded := fun _ => ⟨rfl, rfl, rfl⟩
  header := by intro h; cases h
  prgLength := by intro h; cases h
  romLength := by intro b h; cases h
  ramCells := by intro cells h; cases h

/-- A store nothing has written fits every bound. -/
theorem Memory.fits_nil {w : Nat} (n : Nat) : Memory.fits n ([] : Memory w) := ⟨rfl, rfl⟩

theorem powerUp_inv : Ppu.Inv Ppu.powerUp where
  scanlineLow := by decide
  scanlineHigh := by decide
  cycle := by decide
  slots := List.length_replicate
  spriteCount := by decide
  stale := by decide
  oam := Memory.fits_nil 256
  pal := Memory.fits_nil 32
  fb := Memory.fits_nil (240 * 256)

/-- Settles O58, part by part: no claim flag, the cartridge and the PPU as constructed, the stores unwritten. -/
theorem resetMeetsInvariant : Obligations.ResetMeetsInvariant where
  claimed := noneClaimed_inv
  cart := constructed_inv
  ppu := powerUp_inv
  wram := rfl
  vram := rfl
  wramSize := fun _ => rfl
  vramSize := fun _ => rfl

/-- An unwritten store reads as its power-up draws (10 R45; assumption 6). -/
@[simp] theorem storeByte_nil (id : StoreId) (k : Nat) : storeByte id [] k = Config.powerUp id k := rfl

@[simp] theorem pixelAt_nil (k : Nat) : pixelAt [] k = Config.powerUpPixel k := rfl

/-- The registers are constructed at their reset values, so a reset only calls the CPU collaborator (10 R45). -/
theorem resetBoth_reset : resetBoth State.reset = callCpu .reset State.reset := rfl

/-- Settles O60, from the reset of the constructed state and the reads of unwritten stores. -/
theorem constructionState : Obligations.ConstructionState := by
  unfold Obligations.ConstructionState
  have hreset := (exec_reset State.reset).trans (congrArg _ resetBoth_reset)
  exact ⟨hreset, rfl, rfl, rfl, rfl, rfl, rfl, rfl, rfl, rfl, storeByte_nil .wram, storeByte_nil .vram, storeByte_nil .oam,
    storeByte_nil .pal, pixelAt_nil⟩

end Sys2Proof.Machine
end

section
/-!
SUPPORT. The memory maps as numbers (spec 20 R61, R63, R64): masks of low address bits, the palette alias, the default
nametable map, the default CPU map; and the clauses of a step (20 R67).
-/
namespace Sys2Proof.Machine

/-! ## Masks and addresses -/

/-- A mask of the low `k` bits takes the address modulo `2 ^ k`. -/
theorem and_lowMask_toNat (a : Addr) {m : Addr} (k : Nat) (hm : m.toNat = 2 ^ k - 1) :
    (a &&& m).toNat = a.toNat % 2 ^ k := by
  rw [BitVec.toNat_and, hm, Nat.and_two_pow_sub_one_eq_mod]

/-- The 14-bit mask keeps an address of PPU space. -/
theorem addr14_of_lt {a : Addr} (h : a.toNat < 0x4000) : a &&& 0x3FFF = a :=
  BitVec.eq_of_toNat_eq ((addr14_toNat a).trans (Nat.mod_eq_of_lt h))

/-- The palette alias as arithmetic: the upper half folds onto the lower at the multiples of 4 (20 R63). -/
theorem palIndex_eq (a : Addr) :
    palIndex a = if 16 ≤ a.toNat % 32 ∧ a.toNat % 4 = 0 then a.toNat % 32 - 16 else a.toNat % 32 := by
  have hmod : (a &&& 0x1F).toNat = a.toNat % 32 := and_lowMask_toNat a 5 rfl
  have halias : (a.toNat % 32 = 0x10 ∨ a.toNat % 32 = 0x14 ∨ a.toNat % 32 = 0x18 ∨ a.toNat % 32 = 0x1C) ↔
      16 ≤ a.toNat % 32 ∧ a.toNat % 4 = 0 := by omega
  simp only [palIndex, hmod, halias]

/-- Bit 11 of an address, shifted to bit 10 (20 R64). -/
theorem nametableBit_toNat (a : Addr) : ((a &&& 0x0FFF &&& 0x0800) >>> 1).toNat = (a.toNat / 0x800 % 2) <<< 10 := by
  have hbit : (a &&& 0x0FFF &&& 0x0800).toNat = a.toNat / 0x800 % 2 * 0x800 := by
    rw [BitVec.and_assoc, BitVec.toNat_and]
    exact (Nat.and_two_pow a.toNat 11).trans (congrArg (· * 0x800) (Nat.toNat_testBit a.toNat 11))
  rw [BitVec.toNat_ushiftRight, hbit, Nat.shiftRight_eq_div_pow, Nat.shiftLeft_eq]
  omega

/-- The vertical map drops bit 11 (20 R64). -/
theorem defaultNametableMap_vertical (a : Addr) : defaultNametableMap true a = a.toNat % 0x800 := by
  have hmask : defaultNametableMap true a = (a &&& 0x07FF).toNat := congrArg BitVec.toNat (BitVec.and_assoc a 0x0FFF 0x07FF)
  exact hmask.trans (and_lowMask_toNat a 11 rfl)

/-- The horizontal map drops bit 10 and moves bit 11 there, over ten bits it cannot meet (20 R64). -/
theorem defaultNametableMap_horizontal (a : Addr) :
    defaultNametableMap false a = a.toNat / 0x800 % 2 * 0x400 + a.toNat % 0x400 := by
  have hlow : (a &&& 0x0FFF &&& 0x03FF).toNat = a.toNat % 0x400 := by
    rw [BitVec.and_assoc]; exact and_lowMask_toNat a 10 rfl
  calc defaultNametableMap false a
      = ((a &&& 0x0FFF &&& 0x0800) >>> 1 ||| (a &&& 0x0FFF &&& 0x03FF)).toNat := rfl
    _ = (a.toNat / 0x800 % 2) <<< 10 ||| a.toNat % 0x400 := by rw [BitVec.toNat_or, nametableBit_toNat, hlow]
    _ = (a.toNat / 0x800 % 2) <<< 10 + a.toNat % 0x400 :=
      (Nat.shiftLeft_add_eq_or_of_lt (Nat.mod_lt _ (by decide)) _).symm
    _ = a.toNat / 0x800 % 2 * 0x400 + a.toNat % 0x400 := by rw [Nat.shiftLeft_eq]

theorem verticalMirroring_iff (c : Cart) :
    Cart.verticalMirroring c = true ↔ c.loaded = true ∧ ∃ h, c.header = some h ∧ h.mirroring = true := by
  cases hh : c.header <;> simp [Cart.verticalMirroring, hh]

/-- Settles O28, from the two maps as numbers and the condition that chooses between them. -/
theorem defaultNametableMap_byHeader : Obligations.DefaultNametableMap := by
  unfold Obligations.DefaultNametableMap
  intro cfg c a hmap
  have hoff : nametableOffset cfg c a = defaultNametableMap (Cart.verticalMirroring c) a := by
    simp only [nametableOffset, hmap]
  rw [← verticalMirroring_iff, hoff]
  refine ⟨fun hv => ?_, fun hv => ?_⟩
  · rw [hv, defaultNametableMap_vertical]
  · rw [Bool.eq_false_iff.2 hv, defaultNametableMap_horizontal]

/-! ## Palette RAM -/

/-- What a store reads after one write. -/
theorem storeByte_put (id : StoreId) (m : Memory 8) (a k : Nat) (v : Byte) :
    storeByte id (Memory.put m a v) k = if k = a then v else storeByte id m k := by
  split
  · next h => rw [h, storeByte_put_same]
  · next h => exact storeByte_put_other id m v h

section Palette
variable {a : Addr} (hlo : 0x3F00 ≤ a.toNat) (hhi : a.toNat ≤ 0x3FFF)
include hlo hhi

/-- A palette read changes nothing (42 R196). -/
theorem ppuRead_palette (s : State) : ppuRead a s = .ok (s.ppu.palRead a, s) := by
  simp only [ppuRead, addr14_of_lt (Nat.lt_succ_of_le hhi), if_pos hlo]

theorem ppuPeek_palette (s : State) : s.ppuPeek a = s.ppu.palRead a := by
  simp only [State.ppuPeek, addr14_of_lt (Nat.lt_succ_of_le hhi), if_pos hlo]

/-- A palette write changes one entry and no claim flag (42 R197). -/
theorem ppuWrite_palette (d : Byte) (s : State) : ppuWrite a d s = s.mapPpu (Ppu.palWrite a d) := by
  simp only [ppuWrite, addr14_of_lt (Nat.lt_succ_of_le hhi), if_pos hlo]

end Palette

/-- Settles O24: the palette branch of `PpuRead` and of `ppuPeek`, and the alias as arithmetic. -/
theorem paletteRead : Obligations.PaletteRead := by
  unfold Obligations.PaletteRead
  intro s a hlo hhi
  have hbyte : s.ppu.palRead a = storeByte .pal s.ppu.pal _ &&& _ :=
    congrArg (storeByte .pal s.ppu.pal · &&& if s.ppu.greyscale then 0x30 else 0x3F) (palIndex_eq a)
  refine ⟨?_, hbyte, (ppuPeek_palette hlo hhi s).trans hbyte⟩
  have hexec : exec (.ppuRdPal a) s = .next (s.reply (s.ppu.palRead a)) :=
    congrArg (finish ∘ replyWith) (ppuRead_palette hlo hhi s)
  rw [hexec, hbyte]; rfl

/-- Settles O25: the palette branch of `PpuWrite`, the alias as arithmetic, and the law of one store write. -/
theorem paletteWrite : Obligations.PaletteWrite := by
  unfold Obligations.PaletteWrite
  intro s a d hlo hhi
  refine ⟨?_, fun k => storeByte_put .pal s.ppu.pal _ k d⟩
  have hexec : exec (.ppuWrPal a d) s = .next (s.mapPpu (Ppu.palWrite a d)) :=
    congrArg Host.Outcome.next (ppuWrite_palette hlo hhi d s)
  rw [hexec, State.mapPpu, Ppu.palWrite, palIndex_eq]

/-! ## WorkRam and open bus -/

theorem inRange_workRam (cfg : Config) (a : Addr) :
    inRange cfg .workRam a = true ↔ cfg.workRamLo.toNat ≤ a.toNat ∧ a.toNat ≤ cfg.workRamHi.toNat := by
  rw [inRange, Bool.and_eq_true, decide_eq_true_eq, decide_eq_true_eq]; rfl

/-- Below 0x8000 only WorkRam can answer outside the register window (20 R61). -/
theorem cpuResponder_below_prg (s : State) {a : Addr} (h : a.toNat < 0x8000) :
    s.cpuResponder a = if inRange s.config .workRam a then some .workRam else none := by
  rw [State.cpuResponder, if_neg (fun hc => by omega)]

section MemoryBus
variable {a : Addr} {s : State} (h : a.toNat < 0x2000 ∨ 0x3FFF < a.toNat)
include h

theorem cpuRead_workRam (hr : s.cpuResponder a = some .workRam) :
    cpuTransaction (.read a) s =
      .ok ((s.cpuClaimed (some .workRam)).reply (storeByte .wram s.wram (workRamIndex s.config a))) := by
  rw [cpuTransaction, cpuBusRead_memory a s h, hr]; rfl

theorem cpuRead_openBus (hr : s.cpuResponder a = none) :
    cpuTransaction (.read a) s = .ok ((s.cpuClaimed none).reply 0) := by
  rw [cpuTransaction, cpuBusRead_memory a s h, hr]; rfl

theorem cpuWrite_workRam (d : Byte) (hr : s.cpuResponder a = some .workRam) :
    cpuTransaction (.write a d) s =
      .ok { s.cpuClaimed (some .workRam) with wram := Memory.put s.wram (workRamIndex s.config a) d } := by
  rw [cpuTransaction, cpuBusWrite_memory a d s h, hr]; rfl

theorem cpuWrite_openBus (d : Byte) (hr : s.cpuResponder a = none) :
    cpuTransaction (.write a d) s = .ok (s.cpuClaimed none) := by
  rw [cpuTransaction, cpuBusWrite_memory a d s h, hr]; rfl

end MemoryBus

/-- The default WorkRam is 2 KiB (20 R61). -/
theorem workRamIndex_default (a : Addr) : workRamIndex Config.default a = a.toNat % 2048 := and_lowMask_toNat a 11 rfl

/-- The default WorkRam range ends at 0x1FFF (20 R61). -/
theorem cpuResponder_default {s : State} {a : Addr} (hcfg : s.config = Config.default) (h : a.toNat < 0x8000) :
    s.cpuResponder a = if a.toNat < 0x2000 then some .workRam else none := by
  have hin : inRange Config.default .workRam a = true ↔ a.toNat < 0x2000 := by
    rw [inRange_workRam]
    exact ⟨fun hr => Nat.lt_succ_of_le hr.2, fun hr => ⟨Nat.zero_le _, Nat.le_of_lt_succ hr⟩⟩
  simp only [cpuResponder_below_prg s h, hcfg, hin]

/-- Settles O9, from the default responder of each half of the map and the transaction it answers. -/
theorem defaultCpuMap : Obligations.DefaultCpuMap := by
  unfold Obligations.DefaultCpuMap
  intro s a d hcfg
  have hindex : workRamIndex s.config a = a.toNat % 2048 := by rw [hcfg, workRamIndex_default]
  refine ⟨fun ha => ?_, fun hlo hhi => ?_⟩
  · have hr : s.cpuResponder a = some .workRam := by rw [cpuResponder_default hcfg (by omega), if_pos ha]
    refine ⟨⟨_, congrArg finish (cpuRead_workRam (.inl ha) hr), ?_⟩,
      ⟨_, congrArg finish (cpuWrite_workRam (.inl ha) d hr), fun k => ?_⟩⟩
    · rw [hindex]; rfl
    · rw [hindex]; exact storeByte_put .wram s.wram _ k d
  · have hr : s.cpuResponder a = none := by rw [cpuResponder_default hcfg hhi, if_neg (by omega)]
    exact ⟨⟨_, congrArg finish (cpuRead_openBus (.inr (by omega)) hr), rfl, rfl, rfl, rfl⟩,
      ⟨_, congrArg finish (cpuWrite_openBus (.inr (by omega)) d hr), rfl⟩⟩

/-! ## One step -/

/-- Settles O5, from the cases of a step, of which each clause's hypotheses leave one. -/
theorem stepRunsDecodedInstruction : Obligations.StepRunsDecodedInstruction := by
  unfold Obligations.StepRunsDecodedInstruction
  intro s
  rcases step_cases s with ⟨hnil, hidle⟩ | ⟨r', rest', hcons, hstep⟩
  · exact ⟨fun _ _ _ _ hq _ => by simp [hnil] at hq, fun _ => hidle, fun _ _ _ hq => by simp [hnil] at hq⟩
  · refine ⟨fun r rest i hf hq hd => ?_, fun hq => by simp [hcons] at hq, fun r rest hf hq => ?_⟩
    all_goals obtain ⟨rfl, rfl⟩ := List.cons.inj (hcons.symm.trans hq)
    · rcases hstep with ⟨hf', -⟩ | ⟨-, hd', -⟩ | ⟨-, j, hd', hrun⟩
      · simp [hf] at hf'
      · simp [hd] at hd'
      · cases hd.symm.trans hd'; exact hrun
    · rcases hstep with ⟨-, hignored⟩ | ⟨hf', -⟩ | ⟨hf', -⟩
      · exact hignored
      · simp [hf'] at hf
      · simp [hf'] at hf

end Sys2Proof.Machine
end

section
/-!
SUPPORT. The encoding (spec 30 R90-R93): the fields of a word, the address classes as ranges, the rows the decoder answers,
and the words it refuses.
-/
namespace Sys2Proof.Laws.TableRow

/-- Every row of the table. -/
theorem encode_and_rowMask : ∀ i : Instr, Statement i
  | .cpuRdWram a => cpuRdWram a
  | .cpuRdReg0 a => cpuRdReg0 a
  | .cpuRdReg1 a => cpuRdReg1 a
  | .cpuRdReg2 a => cpuRdReg2 a
  | .cpuRdReg3 a => cpuRdReg3 a
  | .cpuRdReg4 a => cpuRdReg4 a
  | .cpuRdReg5 a => cpuRdReg5 a
  | .cpuRdReg6 a => cpuRdReg6 a
  | .cpuRdReg7 a => cpuRdReg7 a
  | .cpuRdOpen a => cpuRdOpen a
  | .cpuRdPrg a => cpuRdPrg a
  | .cpuWrWram a d => cpuWrWram a d
  | .cpuWrReg0 a d => cpuWrReg0 a d
  | .cpuWrReg1 a d => cpuWrReg1 a d
  | .cpuWrReg2 a d => cpuWrReg2 a d
  | .cpuWrReg3 a d => cpuWrReg3 a d
  | .cpuWrReg4 a d => cpuWrReg4 a d
  | .cpuWrReg5 a d => cpuWrReg5 a d
  | .cpuWrReg6 a d => cpuWrReg6 a d
  | .cpuWrReg7 a d => cpuWrReg7 a d
  | .cpuWrOpen a d => cpuWrOpen a d
  | .cpuWrPrg a d => cpuWrPrg a d
  | .ppuRdChr a => ppuRdChr a
  | .ppuRdNt a => ppuRdNt a
  | .ppuRdPal a => ppuRdPal a
  | .ppuWrChr a d => ppuWrChr a d
  | .ppuWrNt a d => ppuWrNt a d
  | .ppuWrPal a d => ppuWrPal a d
  | .ppuClock => ppuClock
  | .sysStep => sysStep
  | .reset => reset
  | .powerOn => powerOn
  | .loadCart => loadCart
  | .setRun run => setRun run
  | .reservedOpAB op d a => reservedOpAB op d a
  | .reservedOpCF op d a => reservedOpCF op d a

end Sys2Proof.Laws.TableRow

namespace Sys2Proof.Machine

/-! ## The fields of a word (30 R90) -/

section Fields
variable (op : BitVec 4) (data : Byte) (addr : Addr) (w : Word)

theorem assembleWord_toNat :
    (assembleWord op data addr).toNat = op.toNat * 2 ^ 24 + data.toNat * 2 ^ 16 + addr.toNat := by
  have hword : (assembleWord op data addr).toNat = (op.toNat <<< 8 ||| data.toNat) <<< 16 ||| addr.toNat := by
    show ((op ++ data) ++ addr : BitVec (4 + 8 + 16)).toNat = _
    rw [BitVec.toNat_append, BitVec.toNat_append]
  rw [hword, ← Nat.shiftLeft_add_eq_or_of_lt data.isLt, ← Nat.shiftLeft_add_eq_or_of_lt addr.isLt, Nat.shiftLeft_eq,
    Nat.shiftLeft_eq]
  omega

theorem opField_toNat : (opField w).toNat = w.toNat / 2 ^ 24 := by
  rw [opField, BitVec.extractLsb'_toNat, Nat.shiftRight_eq_div_pow]
  have := w.isLt
  omega

theorem dataField_toNat : (dataField w).toNat = w.toNat / 2 ^ 16 % 256 := by
  rw [dataField, BitVec.extractLsb'_toNat, Nat.shiftRight_eq_div_pow]

theorem addrField_toNat : (addrField w).toNat = w.toNat % 2 ^ 16 := by
  rw [addrField, BitVec.extractLsb'_toNat, Nat.shiftRight_zero]

@[simp] theorem opField_assembleWord : opField (assembleWord op data addr) = op := by
  apply BitVec.eq_of_toNat_eq
  rw [opField_toNat, assembleWord_toNat]
  omega

@[simp] theorem dataField_assembleWord : dataField (assembleWord op data addr) = data := by
  apply BitVec.eq_of_toNat_eq
  rw [dataField_toNat, assembleWord_toNat]
  omega

@[simp] theorem addrField_assembleWord : addrField (assembleWord op data addr) = addr := by
  apply BitVec.eq_of_toNat_eq
  rw [addrField_toNat, assembleWord_toNat]
  omega

/-- A word is its three fields. -/
theorem assembleWord_fields : assembleWord (opField w) (dataField w) (addrField w) = w := by
  apply BitVec.eq_of_toNat_eq
  rw [assembleWord_toNat, opField_toNat, dataField_toNat, addrField_toNat]
  omega

end Fields

/-! ## Masks and address classes as ranges (30 R91, R93) -/

/-- A mask of all bits but the low `k` rounds down to a multiple of `2 ^ k`. -/
theorem and_highMask_toNat {n : Nat} (x : BitVec n) {m : BitVec n} (k : Nat) (hm : m = BitVec.allOnes n <<< k) :
    (x &&& m).toNat = x.toNat / 2 ^ k * 2 ^ k := by
  rw [hm, ← BitVec.shiftLeft_ushiftRight, BitVec.toNat_shiftLeft, BitVec.toNat_ushiftRight, Nat.shiftLeft_eq,
    Nat.shiftRight_eq_div_pow]
  exact Nat.mod_eq_of_lt ((Nat.div_mul_le_self _ _).trans_lt x.isLt)

section Classes
variable (a : Addr)

theorem addrMatches_highMask (k n : Nat) {m v : Addr} (hm : m = BitVec.allOnes 16 <<< k) (hv : v.toNat = n) :
    addrMatches m v a = true ↔ a.toNat / 2 ^ k * 2 ^ k = n := by
  rw [addrMatches, beq_iff_eq, ← BitVec.toNat_inj, and_highMask_toNat a k hm, hv]

theorem addrMatches_lowBlock : addrMatches 0xE000 0x0000 a = true ↔ a.toNat < 0x2000 :=
  (addrMatches_highMask a 13 0 rfl rfl).trans (by omega)

theorem addrMatches_secondBlock : addrMatches 0xE000 0x2000 a = true ↔ 0x2000 ≤ a.toNat ∧ a.toNat < 0x4000 :=
  (addrMatches_highMask a 13 0x2000 rfl rfl).trans (by omega)

theorem addrMatches_open : addrMatches 0xC000 0x4000 a = true ↔ 0x4000 ≤ a.toNat ∧ a.toNat < 0x8000 :=
  (addrMatches_highMask a 14 0x4000 rfl rfl).trans (by omega)

theorem addrMatches_prg : addrMatches 0x8000 0x8000 a = true ↔ 0x8000 ≤ a.toNat :=
  (addrMatches_highMask a 15 0x8000 rfl rfl).trans (by have := a.isLt; omega)

theorem addrMatches_palette : addrMatches 0xFF00 0x3F00 a = true ↔ 0x3F00 ≤ a.toNat ∧ a.toNat < 0x4000 :=
  (addrMatches_highMask a 8 0x3F00 rfl rfl).trans (by omega)

theorem addr14_iff : addr14 a = true ↔ a.toNat < 0x4000 :=
  (addrMatches_highMask a 14 0 rfl rfl).trans (by omega)

/-- The register mask keeps the block and the low three bits, which cannot meet. -/
theorem registerMask_toNat : (a &&& 0xE007).toNat = a.toNat / 0x2000 * 0x2000 + a.toNat % 8 := by
  have hsplit : a &&& (0xE000 ||| 0x0007) = a &&& 0xE000 ||| a &&& 0x0007 := BitVec.and_or_distrib_left
  have hlow : a.toNat % 8 < 2 ^ 13 := by omega
  calc (a &&& 0xE007).toNat
      = (a &&& (0xE000 ||| 0x0007)).toNat := rfl
    _ = a.toNat / 0x2000 * 2 ^ 13 ||| a.toNat % 8 := by rw [hsplit, BitVec.toNat_or, block_toNat, low3_toNat]; rfl
    _ = (a.toNat / 0x2000) <<< 13 ||| a.toNat % 8 := by rw [Nat.shiftLeft_eq]
    _ = a.toNat / 0x2000 * 0x2000 + a.toNat % 8 := by rw [← Nat.shiftLeft_add_eq_or_of_lt hlow, Nat.shiftLeft_eq]

/-- A register row is the register window and its low three address bits. -/
theorem addrMatches_register {v : Addr} (hv : v.toNat / 8 * 8 = 0x2000) :
    addrMatches 0xE007 v a = true ↔ (0x2000 ≤ a.toNat ∧ a.toNat < 0x4000) ∧ a.toNat % 8 = v.toNat % 8 := by
  rw [addrMatches, beq_iff_eq, ← BitVec.toNat_inj, registerMask_toNat]
  omega

end Classes

/-- The data of SET_RUN: every bit but bit 0 is reserved (30 R91). -/
theorem runData_iff (d : Byte) : d &&& 0xFE = 0 ↔ d.toNat < 2 := by
  have hmask : (d &&& 0xFE).toNat = d.toNat / 2 ^ 1 * 2 ^ 1 := and_highMask_toNat d 1 rfl
  rw [← BitVec.toNat_inj, hmask]
  show d.toNat / 2 ^ 1 * 2 ^ 1 = 0 ↔ _
  omega

theorem runData_eq {d : Byte} (h : d.toNat < 2) : (if d.getLsbD 0 then 1 else 0) = d := by
  obtain rfl | rfl : d = 0 ∨ d = 1 := by
    rw [← BitVec.toNat_inj, ← BitVec.toNat_inj]
    show d.toNat = 0 ∨ d.toNat = 1
    omega
  · rfl
  · rfl

theorem reservedOpAB_wf (op : BitVec 4) (d : Byte) (a : Addr) :
    (Instr.reservedOpAB op d a).wf = true ↔ 0xA ≤ op.toNat ∧ op.toNat < 0xC := by
  show (op == 0xA || op == 0xB) = true ↔ _
  decide +revert

theorem reservedOpCF_wf (op : BitVec 4) (d : Byte) (a : Addr) :
    (Instr.reservedOpCF op d a).wf = true ↔ 0xC ≤ op.toNat := by
  show (op == 0xC || op == 0xD || op == 0xE || op == 0xF) = true ↔ _
  decide +revert

/-! ## The rows of each operation as ranges (30 R93) -/

section Rows
variable (a : Addr) (d : Byte)

theorem decodeCpuRead_eq :
    decodeCpuRead a =
      if a.toNat < 0x2000 then .cpuRdWram a
      else if 0x2000 ≤ a.toNat ∧ a.toNat < 0x4000 then cpuReadRegister a
      else if 0x4000 ≤ a.toNat ∧ a.toNat < 0x8000 then .cpuRdOpen a
      else .cpuRdPrg a := by
  simp only [decodeCpuRead, addrMatches_lowBlock, addrMatches_secondBlock, addrMatches_open]

theorem decodeCpuWrite_eq :
    decodeCpuWrite a d =
      if a.toNat < 0x2000 then .cpuWrWram a d
      else if 0x2000 ≤ a.toNat ∧ a.toNat < 0x4000 then cpuWriteRegister a d
      else if 0x4000 ≤ a.toNat ∧ a.toNat < 0x8000 then .cpuWrOpen a d
      else .cpuWrPrg a d := by
  simp only [decodeCpuWrite, addrMatches_lowBlock, addrMatches_secondBlock, addrMatches_open]

variable {a} (h14 : a.toNat < 0x4000)
include h14

theorem decodePpuRead_eq :
    decodePpuRead a =
      if 0x3F00 ≤ a.toNat then .ppuRdPal a else if 0x2000 ≤ a.toNat then .ppuRdNt a else .ppuRdChr a := by
  simp only [decodePpuRead, addrMatches_palette, addrMatches_secondBlock, h14, and_true]

theorem decodePpuWrite_eq :
    decodePpuWrite a d =
      if 0x3F00 ≤ a.toNat then .ppuWrPal a d else if 0x2000 ≤ a.toNat then .ppuWrNt a d else .ppuWrChr a d := by
  simp only [decodePpuWrite, addrMatches_palette, addrMatches_secondBlock, h14, and_true]

end Rows

/-- A nametable row is the second block below the palette. -/
theorem nametableRow_iff (a : Addr) :
    (addrMatches 0xE000 0x2000 a && !addrMatches 0xFF00 0x3F00 a) = true ↔ 0x2000 ≤ a.toNat ∧ a.toNat < 0x3F00 := by
  rw [Bool.and_eq_true, Bool.not_eq_true', ← Bool.not_eq_true, addrMatches_secondBlock, addrMatches_palette]
  omega

/-! ## What the decoder accepts is the row of its word -/

/-- `i` is well formed and its word is `w`. -/
structure IsRowOf (i : Instr) (w : Word) : Prop where
  wf : i.wf = true
  encode_eq : encode i = w

section Window
variable {a : Addr} (h : 0x2000 ≤ a.toNat ∧ a.toNat < 0x4000)
include h

theorem cpuReadRegister_isRowOf : IsRowOf (cpuReadRegister a) (assembleWord 0x0 0 a) := by
  have hlt : a.toNat % 8 < 8 := Nat.mod_lt _ (by decide)
  rw [cpuReadRegister, low3_toNat]
  generalize hr : a.toNat % 8 = r at hlt
  interval_cases r <;> exact ⟨(addrMatches_register a (by rfl)).2 ⟨h, hr⟩, rfl⟩

theorem cpuWriteRegister_isRowOf (d : Byte) : IsRowOf (cpuWriteRegister a d) (assembleWord 0x1 d a) := by
  have hlt : a.toNat % 8 < 8 := Nat.mod_lt _ (by decide)
  rw [cpuWriteRegister, low3_toNat]
  generalize hr : a.toNat % 8 = r at hlt
  interval_cases r <;> exact ⟨(addrMatches_register a (by rfl)).2 ⟨h, hr⟩, rfl⟩

end Window

section Accepted
variable (a : Addr) (d : Byte)

theorem decodeCpuRead_isRowOf : IsRowOf (decodeCpuRead a) (assembleWord 0x0 0 a) := by
  rw [decodeCpuRead_eq]
  split_ifs with hwram hreg hopen
  · exact ⟨(addrMatches_lowBlock a).2 hwram, rfl⟩
  · exact cpuReadRegister_isRowOf hreg
  · exact ⟨(addrMatches_open a).2 hopen, rfl⟩
  · exact ⟨(addrMatches_prg a).2 (by omega), rfl⟩

theorem decodeCpuWrite_isRowOf : IsRowOf (decodeCpuWrite a d) (assembleWord 0x1 d a) := by
  rw [decodeCpuWrite_eq]
  split_ifs with hwram hreg hopen
  · exact ⟨(addrMatches_lowBlock a).2 hwram, rfl⟩
  · exact cpuWriteRegister_isRowOf hreg d
  · exact ⟨(addrMatches_open a).2 hopen, rfl⟩
  · exact ⟨(addrMatches_prg a).2 (by omega), rfl⟩

variable {a} (h14 : a.toNat < 0x4000)
include h14

theorem decodePpuRead_isRowOf : IsRowOf (decodePpuRead a) (assembleWord 0x2 0 a) := by
  rw [decodePpuRead_eq h14]
  split_ifs with hpal hnt
  · exact ⟨(addrMatches_palette a).2 ⟨hpal, h14⟩, rfl⟩
  · exact ⟨(nametableRow_iff a).2 ⟨hnt, by omega⟩, rfl⟩
  · exact ⟨(addrMatches_lowBlock a).2 (by omega), rfl⟩

theorem decodePpuWrite_isRowOf : IsRowOf (decodePpuWrite a d) (assembleWord 0x3 d a) := by
  rw [decodePpuWrite_eq d h14]
  split_ifs with hpal hnt
  · exact ⟨(addrMatches_palette a).2 ⟨hpal, h14⟩, rfl⟩
  · exact ⟨(nametableRow_iff a).2 ⟨hnt, by omega⟩, rfl⟩
  · exact ⟨(addrMatches_lowBlock a).2 (by omega), rfl⟩

end Accepted

theorem unlessReserved_eq_ok {c : Bool} {i j : Instr} : unlessReserved c i = .ok j ↔ c = true ∧ i = j := by
  cases c <;> simp [unlessReserved]

theorem unlessReserved_eq_error {c : Bool} {i : Instr} : unlessReserved c i = .error .reservedField ↔ ¬ c = true := by
  cases c <;> simp [unlessReserved]

/-- An accepted word is the encoding of its instruction, operation by operation. -/
theorem decode_isRowOf {op : BitVec 4} {d : Byte} {a : Addr} {i : Instr} (h : decode (assembleWord op d a) = .ok i) :
    IsRowOf i (assembleWord op d a) := by
  simp only [decode, opField_assembleWord, dataField_assembleWord, addrField_assembleWord] at h
  split at h
  all_goals
    simp only [unlessReserved_eq_ok, Except.ok.injEq, Bool.and_eq_true, beq_iff_eq, addr14_iff, runData_iff] at h
  case h_1 hop =>
    obtain ⟨rfl, rfl⟩ := h
    obtain rfl : op = 0x0 := BitVec.eq_of_toNat_eq hop
    exact decodeCpuRead_isRowOf a
  case h_2 hop =>
    obtain rfl := h
    obtain rfl : op = 0x1 := BitVec.eq_of_toNat_eq hop
    exact decodeCpuWrite_isRowOf a d
  case h_3 hop =>
    obtain ⟨⟨rfl, h14⟩, rfl⟩ := h
    obtain rfl : op = 0x2 := BitVec.eq_of_toNat_eq hop
    exact decodePpuRead_isRowOf h14
  case h_4 hop =>
    obtain ⟨h14, rfl⟩ := h
    obtain rfl : op = 0x3 := BitVec.eq_of_toNat_eq hop
    exact decodePpuWrite_isRowOf d h14
  case h_5 hop | h_6 hop | h_7 hop | h_8 hop | h_9 hop =>
    obtain ⟨⟨rfl, rfl⟩, rfl⟩ := h
    exact ⟨rfl, congrArg (assembleWord · 0 0) (BitVec.eq_of_toNat_eq hop.symm)⟩
  case h_10 hop =>
    obtain ⟨⟨hrun, rfl⟩, rfl⟩ := h
    obtain rfl : op = 0x9 := BitVec.eq_of_toNat_eq hop
    exact ⟨rfl, congrArg (assembleWord 0x9 · 0) (runData_eq hrun)⟩
  case h_11 hop | h_12 hop =>
    obtain rfl := h
    exact ⟨(reservedOpAB_wf op d a).2 (by omega), rfl⟩
  case h_13 =>
    obtain rfl := h
    exact ⟨(reservedOpCF_wf op d a).2 (by simp only [imp_false] at *; omega), rfl⟩

/-- Settles O2: the word is put together from its fields, and its row's fixed bits are those of every encoded word. -/
theorem encodeDecodeRoundTrip : Obligations.EncodeDecodeRoundTrip := by
  unfold Obligations.EncodeDecodeRoundTrip
  intro w i h
  rw [← assembleWord_fields w] at h ⊢
  obtain ⟨hwf, hword⟩ := decode_isRowOf h
  exact ⟨hwf, hword, hword ▸ Laws.TableRow.encode_and_rowMask i hwf⟩

/-- Some field the operation leaves unused is not zero (30 R92). -/
def ReservedFieldSet (op data addr : Nat) : Prop :=
  (op ∈ [0, 2, 4, 5, 6, 7, 8] ∧ data ≠ 0) ∨ (op ∈ [4, 5, 6, 7, 8, 9] ∧ addr ≠ 0) ∨ (op = 9 ∧ 2 ≤ data) ∨
    (op ∈ [2, 3] ∧ 0x4000 ≤ addr)

/-- The decoder refuses exactly the words with a reserved field that is not zero. -/
theorem decode_eq_error_iff (op : BitVec 4) (d : Byte) (a : Addr) :
    decode (assembleWord op d a) = .error .reservedField ↔ ReservedFieldSet op.toNat d.toNat a.toNat := by
  have hdata : d = 0 ↔ d.toNat = 0 := BitVec.toNat_inj.symm
  have haddr : a = 0 ↔ a.toNat = 0 := BitVec.toNat_inj.symm
  simp only [decode, opField_assembleWord, dataField_assembleWord, addrField_assembleWord]
  split <;>
    simp only [unlessReserved_eq_error, reduceCtorEq, Bool.and_eq_true, beq_iff_eq, addr14_iff, runData_iff, hdata, haddr,
      ReservedFieldSet, List.mem_cons, List.not_mem_nil, or_false, false_iff, imp_false] at * <;>
    omega

/-- Every word is refused or accepted (30 R92). -/
theorem decode_total (w : Word) : decode w = .error .reservedField ∨ ∃ i, decode w = .ok i := by
  cases hd : decode w with
  | error e => cases e; exact .inl rfl
  | ok i => exact .inr ⟨i, rfl⟩

/-- A refused word is taken, and only the refusal is marked (30 R92, 60 R293). -/
theorem step_of_decode_error {s : State} {r : Request} {rest : List Request} (hq : s.env.requests = r :: rest)
    (hf : s.fault = none) (hd : decode r.word = .error .reservedField) :
    step s = .next (refuse .reservedField (takeRequest r rest s)) := by
  rcases step_cases s with ⟨hnil, -⟩ | ⟨r', rest', hcons, hstep⟩
  · simp [hq] at hnil
  · obtain ⟨rfl, rfl⟩ := List.cons.inj (hcons.symm.trans hq)
    rcases hstep with ⟨hf', -⟩ | ⟨-, -, hrefused⟩ | ⟨-, i, hd', -⟩
    · simp [hf] at hf'
    · exact hrefused
    · simp [hd] at hd'

/-- Settles O3: the words refused are those with a reserved field set, and every other word is its instruction's row. -/
theorem reservedFieldsRefused : Obligations.ReservedFieldsRefused := by
  unfold Obligations.ReservedFieldsRefused
  intro s r rest hq hf op data addr reserved
  have hreserved : decode r.word = .error .reservedField ↔ reserved := by
    have h := decode_eq_error_iff (opField r.word) (dataField r.word) (addrField r.word)
    rwa [assembleWord_fields, opField_toNat, dataField_toNat, addrField_toNat] at h
  refine ⟨fun h => step_of_decode_error hq hf (hreserved.2 h), fun h => ?_⟩
  obtain ⟨i, hi⟩ := (decode_total r.word).resolve_left (mt hreserved.1 h)
  obtain ⟨hwf, -, hmatch⟩ := encodeDecodeRoundTrip r.word i hi
  exact ⟨i, hi, hwf, hmatch⟩

/-! ## The word of a well-formed instruction -/

theorem decode_cpuRead (a : Addr) : decode (assembleWord 0x0 0 a) = .ok (decodeCpuRead a) := by
  simp [decode, unlessReserved]

theorem decode_cpuWrite (a : Addr) (d : Byte) : decode (assembleWord 0x1 d a) = .ok (decodeCpuWrite a d) := by
  simp [decode]

theorem decode_ppuRead {a : Addr} (h14 : a.toNat < 0x4000) : decode (assembleWord 0x2 0 a) = .ok (decodePpuRead a) := by
  simp [decode, unlessReserved, (addr14_iff a).2 h14]

theorem decode_ppuWrite {a : Addr} (h14 : a.toNat < 0x4000) (d : Byte) :
    decode (assembleWord 0x3 d a) = .ok (decodePpuWrite a d) := by
  simp [decode, unlessReserved, (addr14_iff a).2 h14]

theorem decode_encode_reservedOpAB {op : BitVec 4} (d : Byte) (a : Addr) (h : 0xA ≤ op.toNat ∧ op.toNat < 0xC) :
    decode (assembleWord op d a) = .ok (.reservedOpAB op d a) := by
  obtain hop | hop : op.toNat = 0xA ∨ op.toNat = 0xB := by omega
  all_goals simp [decode, hop]

theorem decode_encode_reservedOpCF {op : BitVec 4} (d : Byte) (a : Addr) (h : 0xC ≤ op.toNat) :
    decode (assembleWord op d a) = .ok (.reservedOpCF op d a) := by
  have hlt := op.isLt
  obtain hop | hop | hop | hop : op.toNat = 0xC ∨ op.toNat = 0xD ∨ op.toNat = 0xE ∨ op.toNat = 0xF := by omega
  all_goals simp [decode, hop]

/-- Settles O1: the decoder's ranges on the word of each row, the row's mask giving the range. -/
theorem decodeEncodeRoundTrip : Obligations.DecodeEncodeRoundTrip := by
  unfold Obligations.DecodeEncodeRoundTrip
  intro i h
  cases i with
  | cpuRdWram a =>
    have ha := (addrMatches_lowBlock a).1 h
    rw [encode, decode_cpuRead, decodeCpuRead_eq, if_pos ha]
  | cpuRdReg0 a | cpuRdReg1 a | cpuRdReg2 a | cpuRdReg3 a | cpuRdReg4 a | cpuRdReg5 a | cpuRdReg6 a | cpuRdReg7 a =>
    obtain ⟨hwindow, hr⟩ := (addrMatches_register a (by rfl)).1 h
    rw [encode, decode_cpuRead, decodeCpuRead_eq, if_neg (by omega), if_pos hwindow, cpuReadRegister,
      low3_toNat, hr]
    rfl
  | cpuRdOpen a =>
    have ha := (addrMatches_open a).1 h
    rw [encode, decode_cpuRead, decodeCpuRead_eq, if_neg (by omega), if_neg (by omega), if_pos ha]
  | cpuRdPrg a =>
    have ha := (addrMatches_prg a).1 h
    rw [encode, decode_cpuRead, decodeCpuRead_eq, if_neg (by omega), if_neg (by omega), if_neg (by omega)]
  | cpuWrWram a d =>
    have ha := (addrMatches_lowBlock a).1 h
    rw [encode, decode_cpuWrite, decodeCpuWrite_eq, if_pos ha]
  | cpuWrReg0 a d | cpuWrReg1 a d | cpuWrReg2 a d | cpuWrReg3 a d | cpuWrReg4 a d | cpuWrReg5 a d | cpuWrReg6 a d
  | cpuWrReg7 a d =>
    obtain ⟨hwindow, hr⟩ := (addrMatches_register a (by rfl)).1 h
    rw [encode, decode_cpuWrite, decodeCpuWrite_eq, if_neg (by omega), if_pos hwindow, cpuWriteRegister,
      low3_toNat, hr]
    rfl
  | cpuWrOpen a d =>
    have ha := (addrMatches_open a).1 h
    rw [encode, decode_cpuWrite, decodeCpuWrite_eq, if_neg (by omega), if_neg (by omega), if_pos ha]
  | cpuWrPrg a d =>
    have ha := (addrMatches_prg a).1 h
    rw [encode, decode_cpuWrite, decodeCpuWrite_eq, if_neg (by omega), if_neg (by omega), if_neg (by omega)]
  | ppuRdChr a =>
    have ha := (addrMatches_lowBlock a).1 h
    have h14 : a.toNat < 0x4000 := by omega
    rw [encode, decode_ppuRead h14, decodePpuRead_eq h14, if_neg (by omega), if_neg (by omega)]
  | ppuRdNt a =>
    obtain ⟨hlo, hhi⟩ := (nametableRow_iff a).1 h
    have h14 : a.toNat < 0x4000 := by omega
    rw [encode, decode_ppuRead h14, decodePpuRead_eq h14, if_neg (by omega), if_pos hlo]
  | ppuRdPal a =>
    obtain ⟨hlo, h14⟩ := (addrMatches_palette a).1 h
    rw [encode, decode_ppuRead h14, decodePpuRead_eq h14, if_pos hlo]
  | ppuWrChr a d =>
    have ha := (addrMatches_lowBlock a).1 h
    have h14 : a.toNat < 0x4000 := by omega
    rw [encode, decode_ppuWrite h14, decodePpuWrite_eq d h14, if_neg (by omega), if_neg (by omega)]
  | ppuWrNt a d =>
    obtain ⟨hlo, hhi⟩ := (nametableRow_iff a).1 h
    have h14 : a.toNat < 0x4000 := by omega
    rw [encode, decode_ppuWrite h14, decodePpuWrite_eq d h14, if_neg (by omega), if_pos hlo]
  | ppuWrPal a d =>
    obtain ⟨hlo, h14⟩ := (addrMatches_palette a).1 h
    rw [encode, decode_ppuWrite h14, decodePpuWrite_eq d h14, if_pos hlo]
  | ppuClock | sysStep | reset | powerOn | loadCart => rfl
  | setRun run => cases run <;> rfl
  | reservedOpAB op d a => exact decode_encode_reservedOpAB d a ((reservedOpAB_wf op d a).1 h)
  | reservedOpCF op d a => exact decode_encode_reservedOpCF d a ((reservedOpCF_wf op d a).1 h)

/-- Settles O4: each word is a closed term, which the decoder evaluates. -/
theorem specWordsDecode : Obligations.SpecWordsDecode := by
  unfold Obligations.SpecWordsDecode
  decide

/-- Settles O6: both arms of `exec` are `refuse(ReservedOp)`. -/
theorem reservedOperationsRefused : Obligations.ReservedOperationsRefused := by
  unfold Obligations.ReservedOperationsRefused
  exact fun _ _ _ _ => ⟨rfl, rfl⟩

end Sys2Proof.Machine
end

section
/-!
SUPPORT. The parts of the invariant under the parts of an operation (spec 10 R26-R37, 40 R135, 41 R166, R171): claim flags,
the PPU's updates, and the cartridge.
-/
namespace Sys2Proof.Machine

/-! ## Claim flags (40 R135) -/

theorem Claims.Inv.cpu {c : Claims} (h : Claims.Inv c) (d : Option DeviceId) : Claims.Inv (Claims.cpu c d) := by
  have hone : ∀ {x y : DeviceId}, x ≠ y → (d == some x && d == some y) = false := by
    intro x y hne
    by_cases hx : d = some x <;> simp [hx, hne]
  exact ⟨hone (by decide), hone (by decide), hone (by decide), h.cartPpuVideoRam⟩

theorem Claims.Inv.ppuSide {c : Claims} (h : Claims.Inv c) (d : Option DeviceId) : Claims.Inv (Claims.ppuSide c d) := by
  refine ⟨h.cartCpuPpu, h.cartCpuWorkRam, h.ppuWorkRam, ?_⟩
  by_cases hd : d = some .cartPpu <;> simp [Claims.ppuSide, hd]

/-! ## The PPU's updates -/

/-- An update that keeps the PPU's ranges. -/
def Ppu.KeepsInv (f : Ppu → Ppu) : Prop := ∀ p, Ppu.Inv p → Ppu.Inv (f p)

theorem Ppu.KeepsInv.comp {f g : Ppu → Ppu} (hf : Ppu.KeepsInv f) (hg : Ppu.KeepsInv g) :
    Ppu.KeepsInv (fun p => g (f p)) := fun p hp => hg _ (hf p hp)

theorem Ppu.KeepsInv.when {f : Ppu → Ppu} (b : Bool) (h : Ppu.KeepsInv f) : Ppu.KeepsInv (Ppu.when b f) := by
  cases b
  · exact fun _ hp => hp
  · exact h

/-- Both branches of a conditional update in range. -/
theorem Ppu.Inv.ite {c : Prop} [Decidable c] {p q : Ppu} (hp : Ppu.Inv p) (hq : Ppu.Inv q) : Ppu.Inv (if c then p else q) :=
  iteInduction (fun _ => hp) (fun _ => hq)

/-! Updates of fields that the ranges do not name. -/

theorem clearFrameComplete_keepsInv : Ppu.KeepsInv Ppu.clearFrameComplete := fun _ h => { h with }
theorem shiftBg_keepsInv : Ppu.KeepsInv Ppu.shiftBg := fun _ h => Ppu.Inv.ite { h with } h
theorem loadBgShifters_keepsInv : Ppu.KeepsInv Ppu.loadBgShifters := fun _ h => { h with }
theorem incScrollX_keepsInv : Ppu.KeepsInv Ppu.incScrollX := fun _ h => Ppu.Inv.ite { h with } h
theorem incScrollY_keepsInv : Ppu.KeepsInv Ppu.incScrollY := fun _ h => Ppu.Inv.ite { h with } h
theorem transferX_keepsInv : Ppu.KeepsInv Ppu.transferX := fun _ h => Ppu.Inv.ite { h with } h
theorem transferY_keepsInv : Ppu.KeepsInv Ppu.transferY := fun _ h => Ppu.Inv.ite { h with } h
theorem raiseNmi_keepsInv : Ppu.KeepsInv Ppu.raiseNmi := fun _ h => Ppu.Inv.ite { h with } h
theorem clearNmi_keepsInv : Ppu.KeepsInv (fun p => { p with nmiPending := false }) := fun _ h => { h with }
theorem setDataBuf_keepsInv (b : Byte) : Ppu.KeepsInv (fun p => { p with dataBuf := b }) := fun _ h => { h with }
theorem setNextTileId_keepsInv (b : Byte) : Ppu.KeepsInv (fun p => { p with bgNextTileId := b }) := fun _ h => { h with }
theorem setNextAttr_keepsInv (b : Byte) : Ppu.KeepsInv (fun p => { p with bgNextAttr := attributeBits p.v b }) :=
  fun _ h => { h with }
theorem setNextLo_keepsInv (b : Byte) : Ppu.KeepsInv (fun p => { p with bgNextLo := b }) := fun _ h => { h with }
theorem setNextHi_keepsInv (b : Byte) : Ppu.KeepsInv (fun p => { p with bgNextHi := b }) := fun _ h => { h with }
theorem advanceV_keepsInv : Ppu.KeepsInv Ppu.advanceV := fun _ h => { h with }
theorem writeControl_keepsInv (d : Byte) : Ppu.KeepsInv (Ppu.writeControl d) := fun _ h => { h with }
theorem writeMask_keepsInv (d : Byte) : Ppu.KeepsInv (Ppu.writeMask d) := fun _ h => { h with }
theorem writeOamAddr_keepsInv (d : Byte) : Ppu.KeepsInv (Ppu.writeOamAddr d) := fun _ h => { h with }
theorem writeScroll_keepsInv (d : Byte) : Ppu.KeepsInv (Ppu.writeScroll d) := fun _ h => Ppu.Inv.ite { h with } { h with }
theorem writeAddress_keepsInv (d : Byte) : Ppu.KeepsInv (Ppu.writeAddress d) := fun _ h => Ppu.Inv.ite { h with } { h with }

/-! The Status flags lie above the stale bits (10 R26). -/

theorem setSpriteOverflow_keepsInv (b : Bool) : Ppu.KeepsInv (Ppu.setSpriteOverflow b) := fun p h =>
  { h with stale := (stale_setBit p.status 5 b (by decide)).trans h.stale }

theorem setSpriteZeroHit_keepsInv (b : Bool) : Ppu.KeepsInv (Ppu.setSpriteZeroHit b) := fun p h =>
  { h with stale := (stale_setBit p.status 6 b (by decide)).trans h.stale }

theorem setVblank_keepsInv (b : Bool) : Ppu.KeepsInv (Ppu.setVblank b) := fun p h =>
  { h with stale := (stale_setBit p.status 7 b (by decide)).trans h.stale }

theorem vblankStart_keepsInv : Ppu.KeepsInv Ppu.vblankStart := (setVblank_keepsInv true).comp raiseNmi_keepsInv

/-! The eight slots (10 R34). -/

@[simp] theorem onFirst_length (f : Sprite → Sprite) (n : Nat) (es : List Sprite) :
    (onFirst f n es).length = es.length := by
  induction es generalizing n with
  | nil => cases n <;> rfl
  | cons e es ih => cases n <;> simp [onFirst, ih]

@[simp] theorem fillSlots_length (entry : Nat → Sprite → Sprite) (ns : List Nat) (es : List Sprite) :
    (fillSlots entry ns es).length = es.length := by
  induction es generalizing ns with
  | nil => cases ns <;> rfl
  | cons e es ih => cases ns <;> simp [fillSlots, ih]

theorem matchingEntries_length_le (p : Ppu) (scanline : Int) : (p.matchingEntries scanline).length ≤ 8 :=
  List.length_take_le _ _

theorem preRenderClear_keepsInv : Ppu.KeepsInv Ppu.preRenderClear := fun p h =>
  have hflags := setSpriteOverflow_keepsInv false _ (setSpriteZeroHit_keepsInv false _ (setVblank_keepsInv false p h))
  { hflags with slots := (List.length_map _).trans h.slots }

theorem shiftSprites_keepsInv (c : Nat) : Ppu.KeepsInv (Ppu.shiftSprites c) := fun _ h =>
  Ppu.Inv.ite { h with slots := (onFirst_length _ _ _).trans h.slots } h

theorem evaluateSprites_keepsInv (scanline : Int) : Ppu.KeepsInv (Ppu.evaluateSprites scanline) := fun p h =>
  { setSpriteOverflow_keepsInv _ p h with
    slots := (fillSlots_length _ _ _).trans h.slots
    spriteCount := matchingEntries_length_le p scanline }

theorem loadSprite_keepsInv (i : Nat) (lo hi : Byte) : Ppu.KeepsInv (Ppu.loadSprite i lo hi) := fun _ h =>
  { h with slots := List.length_set.trans h.slots }

theorem lineEndEvents_keepsInv (scanline : Int) (c : Nat) : Ppu.KeepsInv (Ppu.lineEndEvents scanline c) :=
  ((incScrollY_keepsInv.when _).comp ((loadBgShifters_keepsInv.comp transferX_keepsInv).when _)).comp
    ((evaluateSprites_keepsInv scanline).when _)

/-! The stores of the PPU (10 R29, R30, R37). -/

theorem palWrite_keepsInv (a : Addr) (v : Byte) : Ppu.KeepsInv (Ppu.palWrite a v) := fun p h =>
  { h with pal := Memory.fits_put p.pal v (palIndex_lt a) h.pal }

theorem writeOamData_keepsInv (d : Byte) : Ppu.KeepsInv (Ppu.writeOamData d) := fun p h =>
  { h with oam := Memory.fits_put p.oam d p.oamAddr.isLt h.oam }

/-- A visible dot lies in the frame buffer (43 R256). -/
theorem dotKey_lt {p : Ppu} (h : p.visibleDot = true) : p.dotKey < 240 * 256 := by
  simp only [Ppu.visibleDot, Bool.and_eq_true, decide_eq_true_eq] at h
  unfold Ppu.dotKey
  omega

theorem composePixel_keepsInv : Ppu.KeepsInv Ppu.composePixel := fun p h =>
  have hhit : Ppu.Inv (if p.zeroHitNow then p.setSpriteZeroHit true else p) :=
    Ppu.Inv.ite (setSpriteZeroHit_keepsInv true p h) h
  iteInduction (motive := Ppu.Inv) (fun hv => { hhit with fb := Memory.fits_put _ _ (dotKey_lt hv) hhit.fb }) (fun _ => hhit)

/-! The dot counter (10 R35, 43 R257-R259). -/

theorem wrapFrame_cycle_le (p : Ppu) : p.wrapFrame.cycle ≤ 340 :=
  iteInduction (motive := (· ≤ 340)) (fun _ => by decide) (fun _ => by decide)

theorem advance_keepsInv : Ppu.KeepsInv Ppu.advance := by
  intro p h
  have hcycle := h.cycle
  have hlow := h.scanlineLow
  have hhigh := h.scanlineHigh
  unfold Ppu.advance
  split
  · split
    · exact { h with
        scanlineLow := Int.le_refl (-1)
        scanlineHigh := show (-1 : Int) ≤ 260 by decide
        cycle := wrapFrame_cycle_le p }
    · exact { h with
        scanlineLow := by dsimp only; omega
        scanlineHigh := by dsimp only; omega
        cycle := Nat.zero_le 340 }
  · exact { h with cycle := by dsimp only; omega }

theorem finishDot_keepsInv (scanline : Int) (c : Nat) : Ppu.KeepsInv (Ppu.finishDot scanline c) :=
  ((vblankStart_keepsInv.when _).comp composePixel_keepsInv).comp advance_keepsInv

/-- A PPU reset gives every register its construction value and keeps the three stores (10 R44, 44 R277). -/
theorem resetRegisters_keepsInv : Ppu.KeepsInv Ppu.resetRegisters := fun _ h =>
  { powerUp_inv with oam := h.oam, pal := h.pal, fb := h.fb }

/-! ## The cartridge (41 R166, R171) -/

/-- A CHR write inside the window keeps the storage in bounds (41 R162). -/
theorem Cart.Inv.chrWrite {c : Cart} (h : Cart.Inv c) (hl : c.loaded = true) {off : Nat} (hoff : off < 8192) (v : Byte) :
    Cart.Inv { c with chr := ChrStore.write c.chr off v } := by
  cases hc : c.chr with
  | rom bytes =>
    change Cart.Inv { c with chr := .rom bytes }
    rw [← hc]
    exact h
  | ram cells =>
    obtain ⟨hbanks, hfits⟩ := h.ramCells cells hc
    exact { h with
      unloaded := fun hn => by simp [hl] at hn
      romLength := nofun
      ramCells := by
        rintro _ ⟨⟩
        exact ⟨hbanks, Memory.fits_put cells v hoff hfits⟩ }

/-- What a load of a long enough image leaves (41 R166, R167). -/
theorem Cart.Inv.populate {c : Cart} (h : Cart.Inv c) (hd : Header) (b : List Byte) (hlen : hd.imageLength ≤ b.length) :
    Cart.Inv (c.populate hd b) where
  callbacks := h.callbacks
  unloaded := nofun
  header := fun _ => rfl
  prgLength := fun _ => by
    simp only [Header.imageLength, Header.prgLength] at hlen
    simp only [Cart.populate, Cart.prgBanks, Header.prgLength, List.length_take, List.length_drop]
    omega
  romLength := by
    intro bytes _ hchr
    simp only [Header.imageLength, Header.chrLength] at hlen
    simp only [Cart.populate] at hchr
    split at hchr
    · cases hchr
    · next hbanks =>
      cases hchr
      simp only [Cart.populate, Cart.chrBanks, Header.chrLength, List.length_take, List.length_drop]
      refine ⟨fun h0 => hbanks ?_, by omega⟩
      simpa using BitVec.eq_of_toNat_eq h0
  ramCells := by
    intro cells hchr
    simp only [Cart.populate] at hchr
    split at hchr
    · next hbanks =>
      cases hchr
      refine ⟨?_, Memory.fits_nil 8192⟩
      simp only [Cart.populate, Cart.chrBanks]
      rw [beq_iff_eq.1 hbanks]; rfl
    · cases hchr

/-! ## Offsets inside the memories (40 R139, R140; assumption 9) -/

section
variable {cfg : Config} (h : cfg.wf = true)
include h

theorem workRamIndex_lt (a : Addr) : workRamIndex cfg a < cfg.workRamSize := by
  simp only [Config.wf, Bool.and_eq_true, decide_eq_true_eq] at h
  exact Nat.lt_of_le_of_lt (and_le_mask a _) h.1.1

theorem nametableOffset_lt (c : Cart) (a : Addr) : nametableOffset cfg c a < cfg.videoRamSize := by
  simp only [Config.wf, Bool.and_eq_true, decide_eq_true_eq] at h
  obtain ⟨⟨-, hsize⟩, htable⟩ := h
  have hdefault := defaultNametableMap_lt (Cart.verticalMirroring c) a
  unfold nametableOffset
  cases hm : cfg.nametableMap with
  | byHeader => exact Nat.lt_of_lt_of_le hdefault hsize
  | table offsets =>
    simp only [hm, List.all_eq_true, decide_eq_true_eq] at htable
    dsimp only
    cases ho : offsets[a.toNat]? with
    | none => exact Nat.lt_of_lt_of_le hdefault hsize
    | some o => exact htable o (List.mem_of_getElem? ho)

end

end Sys2Proof.Machine
end

section
/-!
SUPPORT. Every operation of the machine keeps its invariant, abandoned by a fault or not (spec 10 R26-R37, 40 R135, 41 R166,
60 R291).
-/
namespace Sys2Proof.Machine

/-! ## Operations in sequence: what follows an abandoned part is left out (60 R291) -/

theorem runBatch_cons (txn : CpuTxn) (txns : List CpuTxn) (s : State) :
    runBatch (txn :: txns) s = (cpuTransaction txn s).bind (runBatch txns) := by
  rw [runBatch]
  cases cpuTransaction txn s <;> rfl

theorem clocks_succ (n : Nat) (s : State) : clocks (n + 1) s = (clock s).bind (clocks n) := by
  rw [clocks]
  cases clock s <;> rfl

theorem systemStep_running {s : State} (h : s.running = true) :
    systemStep s = (clocks 3 s).bind (fun t => cpuClock (deliverNmi t)) := by
  rw [systemStep, if_pos h]
  cases clocks 3 s <;> rfl

theorem fetchSpritesFrom_succ (scanline : Int) (i n : Nat) (s : State) :
    fetchSpritesFrom scanline i (n + 1) s = (fetchSprite scanline i s).bind (fetchSpritesFrom scanline (i + 1) n) := by
  rw [fetchSpritesFrom]
  cases fetchSprite scanline i s <;> rfl

/-- The sprite fetch of cycle 340 on a visible line, nothing at another dot (43 R249, R260). -/
def spriteEvents (scanline : Int) (c : Nat) (s : State) : Halting State :=
  if c = 340 ∧ 0 ≤ scanline then fetchSprites scanline s else .ok s

/-- The rendering events of a dot: pre-render clear, window, line end, sprite fetch, vertical transfer (43 R260). -/
theorem renderEvents_eq_bind (scanline : Int) (c : Nat) (s : State) :
    renderEvents scanline c s =
      (windowEvents c (s.mapPpu (Ppu.when (decide (scanline = -1) && c == 1) Ppu.preRenderClear))).bind fun t =>
        (spriteEvents scanline c (t.mapPpu (Ppu.lineEndEvents scanline c))).bind fun u =>
          .ok (u.mapPpu (Ppu.when (decide (scanline = -1) && (decide (280 ≤ c) && decide (c ≤ 304))) Ppu.transferY)) := by
  rw [renderEvents]
  cases windowEvents c (s.mapPpu (Ppu.when (decide (scanline = -1) && c == 1) Ppu.preRenderClear)) with
  | error t => rfl
  | ok t =>
    simp only [Except.bind, spriteEvents]
    generalize (if c = 340 ∧ 0 ≤ scanline then _ else _ : Halting State) = r
    cases r <;> rfl

/-- The rendering events of lines -1 to 239, none on the other lines (43 R260). -/
def lineEvents (scanline : Int) (c : Nat) (s : State) : Halting State :=
  if -1 ≤ scanline ∧ scanline ≤ 239 then renderEvents scanline c s else .ok s

theorem clock_eq_bind (s : State) :
    clock s = (lineEvents s.ppu.scanline s.ppu.cycle (s.mapPpu Ppu.clearFrameComplete)).bind fun t =>
      .ok (t.mapPpu (Ppu.finishDot s.ppu.scanline s.ppu.cycle)) := by
  rw [clock, lineEvents]
  generalize (if -1 ≤ s.ppu.scanline ∧ s.ppu.scanline ≤ 239 then _ else _ : Halting State) = r
  cases r <;> rfl

/-! ## Updates of the state -/

/-- The invariant reads neither the run toggle, nor the marks, nor the environment. -/
theorem State.Inv.withMarks {s : State} (h : s.Inv) (running : Bool) (fault : Option Fault) (refused : Option Refusal)
    (env : Env) : State.Inv { s with running := running, fault := fault, refused := refused, env := env } := { h with }

theorem State.Inv.withClaims {s : State} (h : s.Inv) {c : Claims} (hc : Claims.Inv c) : State.Inv { s with claimed := c } :=
  { h with claimed := hc }

theorem State.Inv.withPpu {s : State} (h : s.Inv) {p : Ppu} (hp : Ppu.Inv p) : State.Inv { s with ppu := p } :=
  { h with ppu := hp }

theorem State.Inv.mapPpu {s : State} (h : s.Inv) {f : Ppu → Ppu} (hf : Ppu.KeepsInv f) : (s.mapPpu f).Inv :=
  h.withPpu (hf s.ppu h.ppu)

theorem State.Inv.cpuClaimed {s : State} (h : s.Inv) (d : Option DeviceId) : (s.cpuClaimed d).Inv :=
  h.withClaims (h.claimed.cpu d)

theorem State.Inv.reply {s : State} (h : s.Inv) (b : Byte) : (s.reply b).Inv := h.withMarks _ _ _ _

/-- An operation that keeps the invariant, abandoned or not. -/
def KeepsInv (f : State → Halting State) : Prop := ∀ s, s.Inv → (endState (f s)).Inv

/-- Two operations in sequence, the second left out where the first is abandoned (60 R291). -/
theorem KeepsInv.bind {g : State → Halting State} (hg : KeepsInv g) {r : Halting State} (hr : (endState r).Inv) :
    (endState (r.bind g)).Inv := by
  cases r with
  | error t => exact hr
  | ok t => exact hg t hr

/-! ## Stores -/

/-- WorkRam stores one byte, below its size where the parameters agree (40 R139; assumption 9). -/
theorem State.Inv.wramPut {s : State} (h : s.Inv) (a : Addr) (v : Byte) :
    State.Inv { s with wram := Memory.put s.wram (workRamIndex s.config a) v } where
  claimed := h.claimed
  cart := h.cart
  ppu := h.ppu
  wram := Memory.wf_put _ _ _ h.wram
  vram := h.vram
  wramSize := fun hcfg => Memory.below_put _ _ (workRamIndex_lt hcfg a) (h.wramSize hcfg)
  vramSize := h.vramSize

/-- VideoRam stores one byte, below its size where the parameters agree (40 R140; assumption 9). -/
theorem State.Inv.vramPut {s : State} (h : s.Inv) (a : Addr) (v : Byte) :
    State.Inv { s with vram := Memory.put s.vram (nametableOffset s.config s.cart a) v } where
  claimed := h.claimed
  cart := h.cart
  ppu := h.ppu
  wram := h.wram
  vram := Memory.wf_put _ _ _ h.vram
  wramSize := h.wramSize
  vramSize := fun hcfg => Memory.below_put _ _ (nametableOffset_lt hcfg s.cart a) (h.vramSize hcfg)

/-- The cartridge answers only below 0x2000, and when loaded (20 R62). -/
theorem ppuResponder_cartPpu {s : State} {a : Addr} (h : s.ppuResponder a = some .cartPpu) :
    s.cart.loaded = true ∧ a.toNat < 8192 := by
  unfold State.ppuResponder at h
  split at h
  · next hc => exact ⟨hc.1, Nat.lt_succ_of_le hc.2⟩
  · split at h <;> cases h

/-! ## PPU-space accesses -/

theorem ppuWrite_inv (a : Addr) (d : Byte) {s : State} (h : s.Inv) : (ppuWrite a d s).Inv := by
  rw [ppuWrite_eq]
  unfold State.ppuStore
  simp only
  split
  · exact h.mapPpu (palWrite_keepsInv _ d)
  · split
    · next hr =>
      obtain ⟨hl, hoff⟩ := ppuResponder_cartPpu hr
      exact { h.withClaims (h.claimed.ppuSide (some .cartPpu)) with cart := h.cart.chrWrite hl hoff d }
    · exact (h.vramPut _ d).withClaims (h.claimed.ppuSide (some .videoRam))
    · exact h.withClaims (h.claimed.ppuSide none)

theorem claimsAfterPpu_inv (a : Addr) {s : State} (h : s.Inv) : Claims.Inv (s.claimsAfterPpu a) :=
  iteInduction (motive := Claims.Inv) (fun _ => h.claimed) (fun _ => h.claimed.ppuSide _)

/-- A PPU-space read ends in a state of the invariant, with a byte or with a fault. -/
theorem ppuRead_inv (a : Addr) {s : State} (h : s.Inv) :
    (∃ b t, ppuRead a s = .ok (b, t) ∧ t.Inv) ∨ (∃ t, ppuRead a s = .error t ∧ t.Inv) := by
  rcases ppuRead_cases a s with ⟨b, c, hr, rfl⟩ | ⟨c, f, hr, rfl⟩
  · exact .inl ⟨b, _, hr, h.withClaims (claimsAfterPpu_inv a h)⟩
  · exact .inr ⟨_, hr, (h.withClaims (h.claimed.ppuSide (some .cartPpu))).withMarks _ _ _ _⟩

theorem replyWith_ppuRead_keepsInv (a : Addr) : KeepsInv (fun s => replyWith (ppuRead a s)) := by
  intro s h
  rcases ppuRead_inv a h with ⟨b, t, hr, ht⟩ | ⟨t, hr, ht⟩ <;> simp only [hr]
  · exact ht.reply b
  · exact ht

/-! ## CPU transactions -/

theorem readStatus_inv {s : State} (h : s.Inv) : (readStatus s).2.Inv :=
  (h.withPpu (p := { s.ppu.setVblank false with w := false }) { setVblank_keepsInv false _ h.ppu with }).withMarks _ _ _ _

theorem bufferedRead_inv (a : Addr) (b : Byte) {s : State} (h : s.Inv) : (bufferedRead a b s).2.Inv :=
  h.mapPpu (setDataBuf_keepsInv b)

theorem replyWith_readData_keepsInv : KeepsInv (fun s => replyWith (readData s)) := by
  intro s h
  unfold readData
  rcases ppuRead_inv (Loopy.ppuAddress s.ppu.v) h with ⟨b, t, hr, ht⟩ | ⟨t, hr, ht⟩ <;> simp only [hr]
  · split
    · exact ((bufferedRead_inv _ b ht).mapPpu advanceV_keepsInv).reply _
    · exact (ht.mapPpu advanceV_keepsInv).reply b
  · exact ht

theorem replyWith_readRegister_keepsInv (r : Nat) : KeepsInv (fun s => replyWith (readRegister r s)) := by
  intro s h
  unfold readRegister
  split
  · exact (readStatus_inv h).reply _
  · exact h.reply _
  · exact replyWith_readData_keepsInv s h
  · exact h.reply _

theorem writeRegister_inv (r : Nat) (d : Byte) {s : State} (h : s.Inv) : (writeRegister r d s).Inv := by
  unfold writeRegister
  split
  · exact h.mapPpu (writeControl_keepsInv d)
  · exact h.mapPpu (writeMask_keepsInv d)
  · exact h
  · exact h.mapPpu (writeOamAddr_keepsInv d)
  · exact h.mapPpu (writeOamData_keepsInv d)
  · exact h.mapPpu (writeScroll_keepsInv d)
  · exact h.mapPpu (writeAddress_keepsInv d)
  · exact (ppuWrite_inv _ d h).mapPpu advanceV_keepsInv

theorem cpuTransaction_keepsInv (txn : CpuTxn) : KeepsInv (cpuTransaction txn) := by
  intro s h
  cases txn with
  | read a =>
    by_cases ha : 0x2000 ≤ a.toNat ∧ a.toNat ≤ 0x3FFF
    · rw [cpuTransaction, cpuBusRead_register a s ha.1 ha.2]
      exact replyWith_readRegister_keepsInv _ _ (h.cpuClaimed (some .ppu))
    · rw [cpuTransaction, cpuBusRead_memory a s (by omega)]
      split
      · split
        · exact (h.cpuClaimed (some .cartCpu)).reply _
        · exact (h.cpuClaimed (some .cartCpu)).withMarks _ _ _ _
      · exact (h.cpuClaimed (some .workRam)).reply _
      · exact (h.cpuClaimed none).reply 0
  | write a d =>
    by_cases ha : 0x2000 ≤ a.toNat ∧ a.toNat ≤ 0x3FFF
    · rw [cpuTransaction, cpuBusWrite_register a d s ha.1 ha.2]
      exact writeRegister_inv _ d (h.cpuClaimed (some .ppu))
    · rw [cpuTransaction, cpuBusWrite_memory a d s (by omega)]
      split
      · exact (h.wramPut a d).cpuClaimed (some .workRam)
      · exact h.cpuClaimed (s.cpuResponder a)

theorem runBatch_keepsInv (txns : List CpuTxn) : KeepsInv (runBatch txns) := by
  induction txns with
  | nil => exact fun _ h => h
  | cons txn txns ih =>
    intro s h
    rw [runBatch_cons]
    exact ih.bind (cpuTransaction_keepsInv txn s h)

/-! ## One PPU clock (43 R260) -/

/-- A fetch of the background pipeline: a PPU-space read whose byte goes into the PPU. -/
def fetchInto (a : Addr) (f : Byte → Ppu → Ppu) (s : State) : Halting State :=
  match ppuRead a s with
  | .ok (b, s') => .ok (s'.mapPpu (f b))
  | .error s' => .error s'

theorem fetchNametable_eq (s : State) :
    fetchNametable s = fetchInto (nametableAddress s.ppu.v) (fun b p => { p with bgNextTileId := b }) s := rfl

theorem fetchAttribute_eq (s : State) :
    fetchAttribute s =
      fetchInto (attributeAddress s.ppu.v) (fun b p => { p with bgNextAttr := attributeBits p.v b }) s := rfl

theorem fetchPatternLow_eq (s : State) :
    fetchPatternLow s = fetchInto s.ppu.bgPatternAddr (fun b p => { p with bgNextLo := b }) s := rfl

theorem fetchPatternHigh_eq (s : State) :
    fetchPatternHigh s = fetchInto (s.ppu.bgPatternAddr + 8) (fun b p => { p with bgNextHi := b }) s := rfl

theorem fetchInto_keepsInv (a : Addr) {f : Byte → Ppu → Ppu} (hf : ∀ b, Ppu.KeepsInv (f b)) :
    KeepsInv (fetchInto a f) := by
  intro s h
  unfold fetchInto
  rcases ppuRead_inv a h with ⟨b, t, hr, ht⟩ | ⟨t, hr, ht⟩ <;> simp only [hr]
  · exact ht.mapPpu (hf b)
  · exact ht

theorem fetchStep_keepsInv (c : Nat) : KeepsInv (fetchStep c) := by
  intro s h
  unfold fetchStep
  split
  · rw [fetchNametable_eq]
    exact fetchInto_keepsInv _ setNextTileId_keepsInv _ (h.mapPpu loadBgShifters_keepsInv)
  · rw [fetchAttribute_eq]
    exact fetchInto_keepsInv _ setNextAttr_keepsInv s h
  · rw [fetchPatternLow_eq]
    exact fetchInto_keepsInv _ setNextLo_keepsInv s h
  · rw [fetchPatternHigh_eq]
    exact fetchInto_keepsInv _ setNextHi_keepsInv s h
  · exact h.mapPpu incScrollX_keepsInv
  · exact h

theorem windowEvents_keepsInv (c : Nat) : KeepsInv (windowEvents c) := by
  intro s h
  unfold windowEvents
  split
  · exact fetchStep_keepsInv c _ ((h.mapPpu shiftBg_keepsInv).mapPpu (shiftSprites_keepsInv c))
  · exact h

theorem fetchSprite_keepsInv (scanline : Int) (i : Nat) : KeepsInv (fetchSprite scanline i) := by
  intro s h
  unfold fetchSprite
  simp only
  generalize spritePatternAddress s.ppu scanline (s.ppu.slot i) = a
  rcases ppuRead_inv a h with ⟨lo, t, hr, ht⟩ | ⟨t, hr, ht⟩ <;> simp only [hr]
  · rcases ppuRead_inv (a + 8) ht with ⟨hi, u, hr', hu⟩ | ⟨u, hr', hu⟩ <;> simp only [hr']
    · exact hu.mapPpu (loadSprite_keepsInv i lo hi)
    · exact hu
  · exact ht

theorem fetchSpritesFrom_keepsInv (scanline : Int) (n : Nat) : ∀ i, KeepsInv (fetchSpritesFrom scanline i n) := by
  induction n with
  | zero => exact fun _ _ h => h
  | succ n ih =>
    intro i s h
    rw [fetchSpritesFrom_succ]
    exact (ih (i + 1)).bind (fetchSprite_keepsInv scanline i s h)

theorem spriteEvents_keepsInv (scanline : Int) (c : Nat) : KeepsInv (spriteEvents scanline c) := by
  intro s h
  unfold spriteEvents
  split
  · exact fetchSpritesFrom_keepsInv scanline _ 0 s h
  · exact h

theorem renderEvents_keepsInv (scanline : Int) (c : Nat) : KeepsInv (renderEvents scanline c) := by
  intro s h
  rw [renderEvents_eq_bind]
  refine KeepsInv.bind (fun t ht => ?_) (windowEvents_keepsInv c _ (h.mapPpu (preRenderClear_keepsInv.when _)))
  refine KeepsInv.bind (fun u hu => ?_) (spriteEvents_keepsInv scanline c _ (ht.mapPpu (lineEndEvents_keepsInv scanline c)))
  exact hu.mapPpu (transferY_keepsInv.when _)

theorem lineEvents_keepsInv (scanline : Int) (c : Nat) : KeepsInv (lineEvents scanline c) := by
  intro s h
  unfold lineEvents
  split
  · exact renderEvents_keepsInv scanline c s h
  · exact h

theorem clock_keepsInv : KeepsInv clock := by
  intro s h
  rw [clock_eq_bind]
  refine KeepsInv.bind (fun t ht => ?_) (lineEvents_keepsInv _ _ _ (h.mapPpu clearFrameComplete_keepsInv))
  exact ht.mapPpu (finishDot_keepsInv _ _)

theorem clocks_keepsInv (n : Nat) : KeepsInv (clocks n) := by
  induction n with
  | zero => exact fun _ h => h
  | succ n ih =>
    intro s h
    rw [clocks_succ]
    exact ih.bind (clock_keepsInv s h)

/-! ## The system manager and the load -/

theorem deliverNmi_inv {s : State} (h : s.Inv) : (deliverNmi s).Inv := by
  unfold deliverNmi
  split
  · exact (h.mapPpu clearNmi_keepsInv).withMarks _ _ _ _
  · exact h

theorem cpuClock_keepsInv : KeepsInv cpuClock := fun s h => runBatch_keepsInv (nextBatch s) _ (h.withMarks _ _ _ _)

theorem systemStep_keepsInv : KeepsInv systemStep := by
  intro s h
  by_cases hr : s.running = true
  · rw [systemStep_running hr]
    exact KeepsInv.bind (fun _ ht => cpuClock_keepsInv _ (deliverNmi_inv ht)) (clocks_keepsInv 3 s h)
  · rw [systemStep, if_neg hr]
    exact h

theorem resetBoth_inv {s : State} (h : s.Inv) : (resetBoth s).Inv :=
  (h.withMarks _ _ _ _).mapPpu resetRegisters_keepsInv

theorem powerOn_inv {s : State} (h : s.Inv) : (powerOn s).Inv := by
  unfold powerOn
  split
  · exact resetBoth_inv h
  · exact h

theorem runCallbacks_inv (cbs : List Callback) {s : State} (h : s.Inv) : (runCallbacks cbs s).Inv := by
  induction cbs generalizing s with
  | nil => exact h
  | cons cb cbs ih => cases cb; exact ih (resetBoth_inv h)

theorem commitLoad_inv (hd : Header) (b : List Byte) {s : State} (h : s.Inv) (hlen : hd.imageLength ≤ b.length) :
    (commitLoad hd b s).Inv :=
  runCallbacks_inv _ { h with cart := h.cart.populate hd b hlen }

theorem loadBytes_keepsInv (b : List Byte) : KeepsInv (loadBytes b) := by
  intro s h
  unfold loadBytes
  split
  · exact h.withMarks _ _ _ _
  split
  · exact h.withMarks _ _ _ _
  simp only
  split
  · exact h.withMarks _ _ _ _
  split
  · exact h.withMarks _ _ _ _
  · next hlen => exact commitLoad_inv _ b h (Nat.le_of_not_lt hlen)

theorem loadCartridge_keepsInv (img : Image) : KeepsInv (loadCartridge img) := by
  intro s h
  unfold loadCartridge
  split
  · exact h.withMarks _ _ _ _
  · cases img with
    | unreadable => exact h.withMarks _ _ _ _
    | bytes b => exact loadBytes_keepsInv b s h

/-! ## Every instruction and every step -/

theorem exec_inv (i : Instr) {s : State} (h : s.Inv) : ∃ t, exec i s = .next t ∧ t.Inv := by
  cases i with
  | cpuRdWram a | cpuRdReg0 a | cpuRdReg1 a | cpuRdReg2 a | cpuRdReg3 a | cpuRdReg4 a | cpuRdReg5 a | cpuRdReg6 a
  | cpuRdReg7 a | cpuRdOpen a | cpuRdPrg a => exact ⟨_, rfl, cpuTransaction_keepsInv (.read a) s h⟩
  | cpuWrWram a d | cpuWrReg0 a d | cpuWrReg1 a d | cpuWrReg2 a d | cpuWrReg3 a d | cpuWrReg4 a d | cpuWrReg5 a d
  | cpuWrReg6 a d | cpuWrReg7 a d | cpuWrOpen a d | cpuWrPrg a d =>
    exact ⟨_, rfl, cpuTransaction_keepsInv (.write a d) s h⟩
  | ppuRdChr a | ppuRdNt a | ppuRdPal a => exact ⟨_, rfl, replyWith_ppuRead_keepsInv a s h⟩
  | ppuWrChr a d | ppuWrNt a d | ppuWrPal a d => exact ⟨_, rfl, ppuWrite_inv a d h⟩
  | ppuClock => exact ⟨_, rfl, clock_keepsInv s h⟩
  | sysStep => exact ⟨_, rfl, systemStep_keepsInv s h⟩
  | reset => exact ⟨_, rfl, resetBoth_inv h⟩
  | powerOn => exact ⟨_, rfl, powerOn_inv h⟩
  | loadCart => exact ⟨_, rfl, loadCartridge_keepsInv s.env.operand s h⟩
  | setRun run => exact ⟨_, rfl, h.withMarks _ _ _ _⟩
  | reservedOpAB op d a | reservedOpCF op d a => exact ⟨_, rfl, h.withMarks _ _ _ _⟩

/-- Settles O57, by the cases of a step: a word ignored or refused changes no part of the invariant, and every instruction
keeps it. -/
theorem stepKeepsInvariant : Obligations.StepKeepsInvariant := by
  unfold Obligations.StepKeepsInvariant
  intro s t h ht
  rcases step_cases s with ⟨-, hs⟩ | ⟨r, rest, -, ⟨-, hs⟩ | ⟨-, -, hs⟩ | ⟨-, i, -, hs⟩⟩
  · cases hs.symm.trans ht; exact h
  · cases hs.symm.trans ht; exact h.withMarks _ _ _ _
  · cases hs.symm.trans ht; exact h.withMarks _ _ _ _
  · obtain ⟨u, hu, hinv⟩ := exec_inv i (s := takeRequest r rest s) (h.withMarks _ _ _ _)
    cases (hs.trans hu).symm.trans ht
    exact hinv

end Sys2Proof.Machine
end

section
/-!
SUPPORT. Accesses that the cartridge does not answer: the CPU bus outside the register window and PRG (spec 40 R133, R134,
R139), and the nametables of PPU space (40 R140, 42 R196, R197).
-/
namespace Sys2Proof.Machine

/-- What a store reads after a write that may be dropped. -/
theorem storeByte_putIf (id : StoreId) (m : Memory 8) (hit : Bool) (a k : Nat) (v : Byte) :
    storeByte id (if hit then Memory.put m a v else m) k = if hit = true ∧ k = a then v else storeByte id m k := by
  cases hit
  · simp
  · simp [storeByte_put]

/-! ## The CPU bus outside the register window and PRG -/

theorem inRange_workRam_eq_decide (cfg : Config) (a : Addr) :
    inRange cfg .workRam a = decide (cfg.workRamLo.toNat ≤ a.toNat ∧ a.toNat ≤ cfg.workRamHi.toNat) :=
  (Bool.decide_and _ _).symm

/-- Where the cartridge does not answer, only WorkRam can (20 R61). -/
theorem cpuResponder_noPrg {s : State} {a : Addr} (h : a.toNat < 0x8000 ∨ s.cart.loaded = false) :
    s.cpuResponder a = if inRange s.config .workRam a then some .workRam else none := by
  rw [State.cpuResponder, if_neg]
  rintro ⟨hl, ha⟩
  rcases h with h | h
  · omega
  · simp [hl] at h

section NoPrg
variable {s : State} {a : Addr} {hit : Bool} (hwin : a.toNat < 0x2000 ∨ 0x3FFF < a.toNat)
  (hprg : a.toNat < 0x8000 ∨ s.cart.loaded = false) (hhit : inRange s.config .workRam a = hit)
include hwin hprg hhit

/-- A read is WorkRam's byte or open bus, 0 (40 R133, R139). -/
theorem cpuRead_noPrg :
    cpuTransaction (.read a) s =
      .ok { s with
        claimed := { s.claimed with cartCpu := false, ppu := false, workRam := hit }
        env := { s.env with
          replies := (if hit then storeByte .wram s.wram (workRamIndex s.config a) else 0) :: s.env.replies } } := by
  have hr := cpuResponder_noPrg hprg
  rw [hhit] at hr
  cases hit
  · exact cpuRead_openBus hwin hr
  · exact cpuRead_workRam hwin hr

/-- A write is stored by WorkRam or dropped (40 R134, R139). -/
theorem cpuWrite_noPrg (d : Byte) :
    cpuTransaction (.write a d) s =
      .ok { s with
        claimed := { s.claimed with cartCpu := false, ppu := false, workRam := hit }
        wram := if hit then Memory.put s.wram (workRamIndex s.config a) d else s.wram } := by
  have hr := cpuResponder_noPrg hprg
  rw [hhit] at hr
  cases hit
  · exact cpuWrite_openBus hwin d hr
  · exact cpuWrite_workRam hwin d hr

end NoPrg

/-- Settles O7: each row is the same bus read, and its hypotheses keep PPU and cartridge from answering. -/
theorem workRamAndOpenBusRead : Obligations.WorkRamAndOpenBusRead := by
  unfold Obligations.WorkRamAndOpenBusRead
  intro s a
  have hhit := inRange_workRam_eq_decide s.config a
  refine ⟨fun ha => ?_, fun hlo hhi => ?_, fun hlo hl => ?_⟩
  · exact congrArg finish (cpuRead_noPrg (.inl ha) (.inl (by omega)) hhit)
  · exact congrArg finish (cpuRead_noPrg (.inr (by omega)) (.inl hhi) hhit)
  · exact congrArg finish (cpuRead_noPrg (.inr (by omega)) (.inr hl) hhit)

/-- Settles O8: each row is the same bus write, and its hypotheses keep PPU and cartridge from claiming it; then the law of
one store write. -/
theorem workRamAndOpenBusWrite : Obligations.WorkRamAndOpenBusWrite := by
  unfold Obligations.WorkRamAndOpenBusWrite
  intro s a d
  have hhit := inRange_workRam_eq_decide s.config a
  refine ⟨fun ha => ?_, fun hlo hhi => ?_, fun hlo hl => ?_, fun k => storeByte_putIf .wram s.wram _ _ k d⟩
  · exact congrArg finish (cpuWrite_noPrg (.inl ha) (.inl (by omega)) hhit d)
  · exact congrArg finish (cpuWrite_noPrg (.inr (by omega)) (.inl hhi) hhit d)
  · exact congrArg finish (cpuWrite_noPrg (.inr (by omega)) (.inr hl) hhit d)

/-! ## Nametables -/

theorem inRange_videoRam_eq_decide (cfg : Config) (a : Addr) :
    inRange cfg .videoRam a = decide (cfg.videoRamLo.toNat ≤ a.toNat ∧ a.toNat ≤ cfg.videoRamHi.toNat) :=
  (Bool.decide_and _ _).symm

/-- Outside its window the cartridge declines a PPU read. -/
theorem cartPpuRead_above {a : Addr} (h : 0x2000 ≤ a.toNat) (s : State) : cartPpuRead a s = declineRead .cartPpu s := by
  have ha : ¬ a.toNat ≤ 0x1FFF := by omega
  rw [cartPpuRead, mapPpu_eq, if_neg ha]
  split <;> rfl

section Nametable
variable {s : State} {a : Addr} {hit : Bool} (hlo : 0x2000 ≤ a.toNat) (hhi : a.toNat < 0x3F00)
  (hhit : inRange s.config .videoRam a = hit)
include hlo hhi hhit

/-- A nametable read is VideoRam's byte or open bus, 0 (40 R140, 42 R196). -/
theorem ppuRead_nametable :
    ppuRead a s =
      .ok (if hit then storeByte .vram s.vram (nametableOffset s.config s.cart a) else 0,
        { s with claimed := { s.claimed with cartPpu := false, videoRam := hit } }) := by
  have hpal : ¬ 0x3F00 ≤ a.toNat := by omega
  simp only [ppuRead, addr14_of_lt (Nat.lt_trans hhi (by decide)), if_neg hpal, chainRead, ppuChain, clearClaims,
    consultRead, memoryDeviceRead, cartPpuRead_above hlo, videoRamRead, declineRead, State.setClaim_config, hhit]
  cases hit <;> rfl

/-- A nametable write is stored by VideoRam or dropped (40 R140, 42 R197). -/
theorem ppuWrite_nametable (d : Byte) :
    ppuWrite a d s =
      { s with
        claimed := { s.claimed with cartPpu := false, videoRam := hit }
        vram := if hit then Memory.put s.vram (nametableOffset s.config s.cart a) d else s.vram } := by
  have hpal : ¬ 0x3F00 ≤ a.toNat := by omega
  have hchr : ¬ (s.cart.loaded = true ∧ a.toNat ≤ 0x1FFF) := by omega
  simp only [ppuWrite_eq, State.ppuStore, addr14_of_lt (Nat.lt_trans hhi (by decide)), if_neg hpal, State.ppuResponder,
    if_neg hchr, hhit]
  cases hit <;> rfl

end Nametable

/-- Settles O26, from the nametable read, whose byte goes to the agent. -/
theorem nametableRead : Obligations.NametableRead := by
  unfold Obligations.NametableRead
  intro s a hlo hhi
  exact congrArg (finish ∘ replyWith) (ppuRead_nametable hlo hhi (inRange_videoRam_eq_decide s.config a))

/-- Settles O27, from the nametable write and the law of one store write. -/
theorem nametableWrite : Obligations.NametableWrite := by
  unfold Obligations.NametableWrite
  intro s a d hlo hhi
  have hwrite := ppuWrite_nametable hlo hhi (inRange_videoRam_eq_decide s.config a) d
  exact ⟨congrArg Host.Outcome.next hwrite, fun k => storeByte_putIf .vram s.vram _ _ k d⟩

end Sys2Proof.Machine
end

section
/-!
SUPPORT. The accesses of the cartridge's two faces (spec 41 R150-R162): PRG on the CPU bus, CHR in PPU space.
-/
namespace Sys2Proof.Machine

/-! ## PRG (41 R152, R154, R158, R159) -/

/-- In the PRG window, the masks of 41 R152 as arithmetic, under either mapper. -/
theorem mapCpu_prg (c : Cart) {a : Addr} (ha : 0x8000 ≤ a.toNat) :
    mapCpu c a = (if 1 < Cart.prgBanks c then a.toNat % 0x8000 else a.toNat % 0x4000, true) := by
  rw [mapCpu_eq, if_pos ha]
  split
  · exact congrArg (·, true) (and_lowMask_toNat a 15 rfl)
  · exact congrArg (·, true) (and_lowMask_toNat a 14 rfl)

theorem mapCpu_below (c : Cart) {a : Addr} (ha : a.toNat < 0x8000) : mapCpu c a = (0, false) := by
  rw [mapCpu_eq, if_neg (Nat.not_le.2 ha)]

theorem prgBanks_of_header {c : Cart} {h : Header} (hh : c.header = some h) : Cart.prgBanks c = h.prgBanks.toNat := by
  rw [Cart.prgBanks, hh]

/-- A cartridge that is not loaded declines a CPU read (41 R151). -/
theorem cartCpuRead_unloaded {s : State} (hl : s.cart.loaded = false) (a : Addr) :
    cartCpuRead a s = .ok (0, s.setClaim .cartCpu false) := by
  rw [cartCpuRead, hl]; rfl

section Prg
variable {s : State} {a : Addr} (hl : s.cart.loaded = true) (ha : 0x8000 ≤ a.toNat)
include hl ha

theorem cpuResponder_prg : s.cpuResponder a = some .cartCpu := if_pos ⟨hl, ha⟩

theorem cpuRead_prg {off : Nat} (hoff : (mapCpu s.cart a).1 = off) {b : Byte} (hb : s.cart.prg[off]? = some b) :
    cpuTransaction (.read a) s = .ok ((s.cpuClaimed (some .cartCpu)).reply b) := by
  simp only [cpuTransaction, cpuBusRead_memory a s (.inr (by omega)), cpuResponder_prg hl ha, hoff, hb]; rfl

/-- Outside PRG a read is the bounds fault, and no byte is returned (41 R158). -/
theorem cpuRead_prg_outside {off : Nat} (hoff : (mapCpu s.cart a).1 = off) (hout : s.cart.prg.length ≤ off) :
    cpuTransaction (.read a) s =
      .error (raiseFault (.mapperOffsetOutOfBounds a off) (s.cpuClaimed (some .cartCpu))) := by
  have hb := List.getElem?_eq_none hout
  simp only [cpuTransaction, cpuBusRead_memory a s (.inr (by omega)), cpuResponder_prg hl ha, hoff, hb]; rfl

theorem cpuWrite_prg (d : Byte) : cpuTransaction (.write a d) s = .ok (s.cpuClaimed (some .cartCpu)) := by
  rw [cpuTransaction, cpuBusWrite_memory a d s (.inr (by omega)), cpuResponder_prg hl ha]; rfl

end Prg

/-- Settles O10, from the masks as arithmetic and the CPU read of PRG inside and outside its bytes. -/
theorem prgRead : Obligations.PrgRead := by
  unfold Obligations.PrgRead
  intro s a
  refine ⟨fun h ha hl hh => ?_, fun ha => mapCpu_below s.cart ha, fun hdecline => ?_⟩
  · have hmap := mapCpu_prg s.cart ha
    rw [prgBanks_of_header hh] at hmap
    have hoff := congrArg Prod.fst hmap
    refine ⟨hmap, fun b hb => ?_, fun hout => ?_⟩
    · exact congrArg finish (cpuRead_prg hl ha hoff hb)
    · exact congrArg finish (cpuRead_prg_outside hl ha hoff hout)
  · rcases hdecline with ha | hl
    · exact cartCpuRead_below a s ha
    · exact cartCpuRead_unloaded hl a

/-- Settles O11, from the CPU write of PRG. -/
theorem prgWriteDiscarded : Obligations.PrgWriteDiscarded := by
  unfold Obligations.PrgWriteDiscarded
  intro s a d ha hl
  exact congrArg finish (cpuWrite_prg hl ha d)

/-! ## CHR (41 R153, R155, R161, R162) -/

theorem mapPpu_chr (c : Cart) {a : Addr} (ha : a.toNat < 0x2000) : mapPpu c a = (a.toNat, true) := by
  rw [mapPpu_eq, if_pos (Nat.le_of_lt_succ ha)]

theorem mapPpu_above (c : Cart) {a : Addr} (ha : 0x2000 ≤ a.toNat) : mapPpu c a = (0, false) := by
  rw [mapPpu_eq, if_neg (by omega)]

/-- A cartridge that is not loaded declines a PPU read (41 R151). -/
theorem cartPpuRead_unloaded {s : State} (hl : s.cart.loaded = false) (a : Addr) :
    cartPpuRead a s = .ok (0, s.setClaim .cartPpu false) := by
  rw [cartPpuRead, hl]; rfl

theorem cartPpuWrite_unloaded {s : State} (hl : s.cart.loaded = false) (a : Addr) (d : Byte) :
    cartPpuWrite a d s = s.setClaim .cartPpu false := by
  rw [cartPpuWrite, hl]; rfl

theorem cartPpuWrite_above {a : Addr} (ha : 0x2000 ≤ a.toNat) (d : Byte) (s : State) :
    cartPpuWrite a d s = s.setClaim .cartPpu false := by
  rw [cartPpuWrite, mapPpu_above s.cart ha]; exact ite_self _

theorem consultRead_claimed {read : DeviceId → Addr → State → Halting (Byte × State)} {a : Addr} {d : DeviceId}
    (ds : List DeviceId) {s t : State} {b : Byte} (h : read d a s = .ok (b, t)) (hc : Claims.get t.claimed d = true) :
    consultRead read a (d :: ds) s = .ok (b, t) := by
  simp [consultRead, h, hc]

theorem consultRead_fault {read : DeviceId → Addr → State → Halting (Byte × State)} {a : Addr} {d : DeviceId}
    (ds : List DeviceId) {s t : State} (h : read d a s = .error t) : consultRead read a (d :: ds) s = .error t := by
  simp [consultRead, h]

theorem ppuRead_below_palette {a : Addr} (h : a.toNat < 0x3F00) (s : State) :
    ppuRead a s = chainRead memoryDeviceRead ppuChain a s := by
  simp only [ppuRead, addr14_of_lt (Nat.lt_trans h (by decide)), if_neg (Nat.not_le.2 h)]

section Chr
variable {s : State} {a : Addr} (hl : s.cart.loaded = true) (ha : a.toNat < 0x2000)
include hl ha

theorem cartPpuRead_chr {b : Byte} (hb : ChrStore.byte? s.cart.chr a.toNat = some b) :
    cartPpuRead a s = .ok (b, s.setClaim .cartPpu true) := by
  simp only [cartPpuRead, hl, if_true, mapPpu_chr s.cart ha, hb]

theorem cartPpuRead_chr_outside (hb : ChrStore.byte? s.cart.chr a.toNat = none) :
    cartPpuRead a s = .error (raiseFault (.mapperOffsetOutOfBounds a a.toNat) (s.setClaim .cartPpu true)) := by
  simp only [cartPpuRead, hl, if_true, mapPpu_chr s.cart ha, hb]

/-- The cartridge is first on the PPU chain, so its byte is the byte read (40 R133). -/
theorem ppuRead_chr {b : Byte} (hb : ChrStore.byte? s.cart.chr a.toNat = some b) :
    ppuRead a s = .ok (b, { s with claimed := Claims.ppuSide s.claimed (some .cartPpu) }) := by
  rw [ppuRead_below_palette (Nat.lt_trans ha (by decide))]
  exact consultRead_claimed [.videoRam] (cartPpuRead_chr (s := clearClaims ppuChain s) hl ha hb) rfl

theorem ppuRead_chr_outside (hb : ChrStore.byte? s.cart.chr a.toNat = none) :
    ppuRead a s =
      .error (raiseFault (.mapperOffsetOutOfBounds a a.toNat)
        { s with claimed := Claims.ppuSide s.claimed (some .cartPpu) }) := by
  rw [ppuRead_below_palette (Nat.lt_trans ha (by decide))]
  exact consultRead_fault [.videoRam] (cartPpuRead_chr_outside (s := clearClaims ppuChain s) hl ha hb)

theorem ppuWrite_chr (d : Byte) :
    ppuWrite a d s =
      { s with
        claimed := Claims.ppuSide s.claimed (some .cartPpu)
        cart := { s.cart with chr := ChrStore.write s.cart.chr a.toNat d } } := by
  have hr : s.ppuResponder a = some .cartPpu := if_pos ⟨hl, Nat.le_of_lt_succ ha⟩
  rw [ppuWrite_eq]
  simp only [State.ppuStore, addr14_of_lt (Nat.lt_trans ha (by decide)), if_neg (show ¬ 0x3F00 ≤ a.toNat by omega), hr]

end Chr

/-- With no cartridge only VideoRam can answer (41 R151, 20 R62). -/
theorem ppuResponder_unloaded {s : State} (hl : s.cart.loaded = false) (a : Addr) :
    s.ppuResponder a = if inRange s.config .videoRam a then some .videoRam else none := by
  simp [State.ppuResponder, hl]

section NoCart
variable {s : State} {a : Addr} {hit : Bool} (hl : s.cart.loaded = false) (ha : a.toNat < 0x3F00)
  (hhit : inRange s.config .videoRam a = hit)
include hl ha hhit

theorem ppuRead_unloaded :
    ppuRead a s =
      .ok (if hit then storeByte .vram s.vram (nametableOffset s.config s.cart a) else 0,
        { s with claimed := { s.claimed with cartPpu := false, videoRam := hit } }) := by
  have hchr : Cart.chrInBounds s.cart := fun h => by simp [hl] at h
  have hr := ppuResponder_unloaded hl a
  rw [hhit] at hr
  rw [ppuRead_eq a s hchr]
  simp only [State.ppuPeek, State.claimsAfterPpu, addr14_of_lt (Nat.lt_trans ha (by decide)), if_neg (Nat.not_le.2 ha), hr]
  cases hit <;> rfl

theorem ppuWrite_unloaded (d : Byte) :
    ppuWrite a d s =
      { s with
        claimed := { s.claimed with cartPpu := false, videoRam := hit }
        vram := if hit then Memory.put s.vram (nametableOffset s.config s.cart a) d else s.vram } := by
  have hr := ppuResponder_unloaded hl a
  rw [hhit] at hr
  rw [ppuWrite_eq]
  simp only [State.ppuStore, addr14_of_lt (Nat.lt_trans ha (by decide)), if_neg (Nat.not_le.2 ha), hr]
  cases hit <;> rfl

end NoCart

/-- Every offset of the window is inside CHR-RAM (41 R161). -/
theorem ChrStore.byte?_ram (cells : Memory 8) {off : Nat} (h : off < 8192) :
    ChrStore.byte? (.ram cells) off = some (storeByte .chrRam cells off) := if_pos h

/-- Settles O29: the cartridge's window, the read it answers from CHR-ROM or CHR-RAM, and the read VideoRam answers when no
cartridge does. -/
theorem chrRead : Obligations.ChrRead := by
  unfold Obligations.ChrRead
  intro s a
  refine ⟨?_, fun hdecline => ?_, fun ha => ⟨fun hl => ⟨fun bytes b hrom hb => ?_, fun cells hram => ?_,
    fun bytes hrom hout => ?_⟩, fun hl => ?_⟩⟩
  · split
    · next ha => exact mapPpu_chr s.cart ha
    · next ha => exact mapPpu_above s.cart (Nat.le_of_not_lt ha)
  · rcases hdecline with ha | hl
    · exact cartPpuRead_above ha s
    · exact cartPpuRead_unloaded hl a
  · have hbyte : ChrStore.byte? s.cart.chr a.toNat = some b := hrom ▸ hb
    exact congrArg (finish ∘ replyWith) (ppuRead_chr hl ha hbyte)
  · have hbyte := hram ▸ ChrStore.byte?_ram cells ha
    exact congrArg (finish ∘ replyWith) (ppuRead_chr hl ha hbyte)
  · have hbyte : ChrStore.byte? s.cart.chr a.toNat = none := hrom ▸ List.getElem?_eq_none hout
    exact congrArg (finish ∘ replyWith) (ppuRead_chr_outside hl ha hbyte)
  · have hread := ppuRead_unloaded hl (Nat.lt_trans ha (by decide)) (inRange_videoRam_eq_decide s.config a)
    exact congrArg (finish ∘ replyWith) hread

/-- Settles O30: the write the cartridge claims, stored in CHR-RAM and discarded by CHR-ROM, and the write VideoRam takes when
no cartridge claims it. -/
theorem chrWrite : Obligations.ChrWrite := by
  unfold Obligations.ChrWrite
  intro s a d
  refine ⟨fun hdecline => ?_, fun ha => ⟨fun hl => ⟨fun cells hram => ⟨?_, fun k => ?_⟩, fun bytes hrom => ?_⟩,
    fun hl => ?_⟩⟩
  · rcases hdecline with ha | hl
    · exact cartPpuWrite_above ha d s
    · exact cartPpuWrite_unloaded hl a d
  · have hwrite := ppuWrite_chr hl ha d
    rw [hram] at hwrite
    exact congrArg Host.Outcome.next hwrite
  · exact storeByte_put .chrRam cells _ k d
  · have hsame : ChrStore.write s.cart.chr a.toNat d = s.cart.chr := by rw [hrom]; rfl
    have hwrite := ppuWrite_chr hl ha d
    rw [hsame] at hwrite
    exact congrArg Host.Outcome.next hwrite
  · have hwrite := ppuWrite_unloaded hl (Nat.lt_trans ha (by decide)) (inRange_videoRam_eq_decide s.config a) d
    exact congrArg Host.Outcome.next hwrite

end Sys2Proof.Machine
end

section
/-!
SUPPORT. The load of a cartridge (spec 41 R163-R170): the header's fields as numbers (30 R100), the tests of an image in their
order, and the state a load that passes them leaves.
-/
namespace Sys2Proof.Machine

/-! ## The header (30 R100, 41 R165) -/

theorem hasSignature_iff (b : List Byte) : hasSignature b = true ↔ b.take 4 = [0x4E, 0x45, 0x53, 0x1A] := beq_iff_eq

/-- Bits 3:2 of a byte, where they stand: the low four bits rounded down to a multiple of 4. -/
theorem bits32_toNat (x : Byte) : (x &&& 0x0C).toNat = x.toNat % 16 / 4 * 4 := by
  have hlow : (x &&& 0x0F).toNat = x.toNat % 16 := by
    rw [BitVec.toNat_and]; exact Nat.and_two_pow_sub_one_eq_mod x.toNat 4
  calc (x &&& 0x0C).toNat
      = (x &&& 0x0F &&& 0xFC).toNat := congrArg BitVec.toNat (BitVec.and_assoc x 0x0F 0xFC).symm
    _ = (x &&& 0x0F).toNat / 4 * 4 := and_highMask_toNat (x &&& 0x0F) 2 rfl
    _ = x.toNat % 16 / 4 * 4 := by rw [hlow]

theorem imageFormat_eq (b : List Byte) :
    imageFormat b = if (imageByte b 7).toNat / 4 % 4 = 2 then .nes2 else .iNES := by
  have hbits : (imageByte b 7 &&& 0x0C == 0x08) = true ↔ (imageByte b 7).toNat / 4 % 4 = 2 := by
    rw [beq_iff_eq, ← BitVec.toNat_inj, bits32_toNat]
    show _ = 8 ↔ _
    omega
  simp only [imageFormat, hbits]

theorem format_eq_nes2_iff (b : List Byte) :
    (parseHeader b).format = .nes2 ↔ (imageByte b 7).toNat / 4 % 4 = 2 := by
  show imageFormat b = .nes2 ↔ _
  simp [imageFormat_eq]

/-- Two high nibbles side by side (41 R156). -/
theorem highNibbles_append (x y : Byte) :
    x.extractLsb' 4 4 ++ y.extractLsb' 4 4 = BitVec.ofNat 8 (x.toNat / 16 * 16 + y.toNat / 16) := by
  apply BitVec.eq_of_toNat_eq
  rw [BitVec.toNat_append, ← Nat.shiftLeft_add_eq_or_of_lt (BitVec.isLt _), Nat.shiftLeft_eq, BitVec.extractLsb'_toNat,
    BitVec.extractLsb'_toNat, Nat.shiftRight_eq_div_pow, Nat.shiftRight_eq_div_pow, BitVec.toNat_ofNat]
  omega

/-- The two header fields that are not a byte or a bit of the image, as arithmetic. -/
theorem parseHeader_eq (b : List Byte) :
    parseHeader b =
      { parseHeader b with
        format := if (imageByte b 7).toNat / 4 % 4 = 2 then .nes2 else .iNES
        mapperId := BitVec.ofNat 8 ((imageByte b 7).toNat / 16 * 16 + (imageByte b 6).toNat / 16) } := by
  rw [← imageFormat_eq, ← highNibbles_append]; rfl

/-! ## The tests of an image, in their order (41 R164, R167; assumption 12) -/

theorem exec_loadCart_loaded {s : State} (hl : s.cart.loaded = true) :
    exec .loadCart s = .next (refuse .secondLoad s) := congrArg finish (if_pos hl)

theorem exec_loadCart_unreadable {s : State} (hl : s.cart.loaded = false) (hop : s.env.operand = .unreadable) :
    exec .loadCart s = .next (raiseFault .loadUnreadable s) := by
  show finish (loadCartridge s.env.operand s) = _
  rw [hop, loadCartridge, hl]; rfl

theorem exec_loadCart_bytes {s : State} (hl : s.cart.loaded = false) {b : List Byte} (hop : s.env.operand = .bytes b) :
    exec .loadCart s = finish (loadBytes b s) := by
  show finish (loadCartridge s.env.operand s) = _
  rw [hop, loadCartridge, hl]; rfl

section Tests
variable (s : State) {b : List Byte}

theorem loadBytes_short (hlen : b.length < 16) :
    loadBytes b s = .error (raiseFault (.loadTruncated b.length 16) s) := if_pos hlen

variable (hlen : 16 ≤ b.length)
include hlen

theorem loadBytes_unsigned (hsig : ¬ hasSignature b = true) :
    loadBytes b s =
      .error (raiseFault (.loadBadSignature (imageByte b 0) (imageByte b 1) (imageByte b 2) (imageByte b 3)) s) := by
  rw [loadBytes, if_neg (Nat.not_lt.2 hlen), if_pos (by simpa using hsig)]

variable (hsig : hasSignature b = true)
include hsig

/-- A signed image of at least 16 bytes: the NES 2.0 policy, then the full length. -/
theorem loadBytes_signed :
    loadBytes b s =
      if (parseHeader b).format = .nes2 ∧ s.config.nes2Policy = .refuse then .ok (refuse .nes2NotDecoded s)
      else if b.length < (parseHeader b).imageLength then
        .error (raiseFault (.loadTruncated b.length (parseHeader b).imageLength) s)
      else .ok (commitLoad (parseHeader b) b s) := by
  rw [loadBytes, if_neg (Nat.not_lt.2 hlen), if_neg (by simp [hsig])]

theorem loadBytes_refused (hnes2 : (parseHeader b).format = .nes2 ∧ s.config.nes2Policy = .refuse) :
    loadBytes b s = .ok (refuse .nes2NotDecoded s) := by
  rw [loadBytes_signed s hlen hsig, if_pos hnes2]

variable {s} (hnes2 : ¬ ((parseHeader b).format = .nes2 ∧ s.config.nes2Policy = .refuse))
include hnes2

theorem loadBytes_truncated (hshort : b.length < (parseHeader b).imageLength) :
    loadBytes b s = .error (raiseFault (.loadTruncated b.length (parseHeader b).imageLength) s) := by
  rw [loadBytes_signed s hlen hsig, if_neg hnes2, if_pos hshort]

theorem loadBytes_whole (hwhole : (parseHeader b).imageLength ≤ b.length) :
    loadBytes b s = .ok (commitLoad (parseHeader b) b s) := by
  rw [loadBytes_signed s hlen hsig, if_neg hnes2, if_neg (Nat.not_lt.2 hwhole)]

end Tests

/-! ## The state after a load (41 R166, R169) -/

theorem populate_eq (c : Cart) (h : Header) (b : List Byte) :
    c.populate h b =
      { c with
        loaded := true
        header := some h
        prg := (b.drop h.prgStart).take h.prgLength
        chr := if h.chrBanks = 0 then .ram [] else .rom ((b.drop (h.prgStart + h.prgLength)).take h.chrLength)
        mapper := if h.mapperId = 3 then .cnrom else .nrom } := by
  simp only [Cart.populate, selectMapper, beq_iff_eq]

/-- The one callback of the wired cartridge resets the CPU collaborator and the PPU (44 R270, R271). -/
theorem commitLoad_wired {s : State} (hcb : s.cart.callbacks = [.onCartridgeLoaded]) (h : Header) (b : List Byte) :
    commitLoad h b s = resetBoth { s with cart := s.cart.populate h b } := by
  rw [commitLoad, hcb]; rfl

/-- Whatever the callbacks, the cartridge is loaded with the image's header. -/
theorem commitLoad_header (h : Header) (b : List Byte) (s : State) :
    (commitLoad h b s).cart.loaded = true ∧ (commitLoad h b s).cart.header = some h := by
  have hcart := (runCallbacks_sameSetup s.cart.callbacks { s with cart := s.cart.populate h b }).cart
  exact ⟨(congrArg Cart.loaded hcart).trans rfl, (congrArg Cart.header hcart).trans rfl⟩

/-- Settles O31: the image passes every test but that of its length, and a whole one is committed with the header as numbers
and one reset. -/
theorem loadCompletes : Obligations.LoadCompletes := by
  unfold Obligations.LoadCompletes
  intro s b hl hcb hop hlen htake at' nes2 start prgLen chrLen mapperId hpolicy
  have hsig := (hasSignature_iff b).2 htake
  have hnes2 : ¬ ((parseHeader b).format = .nes2 ∧ s.config.nes2Policy = .refuse) := by
    rw [format_eq_nes2_iff]
    rintro ⟨hfmt, href⟩
    cases href.symm.trans (hpolicy (beq_iff_eq.2 hfmt))
  have hexec := exec_loadCart_bytes hl hop
  refine ⟨fun hshort => ?_, fun hwhole => ?_⟩
  · exact hexec.trans (congrArg finish (loadBytes_truncated hlen hsig hnes2 hshort))
  · rw [hexec, loadBytes_whole hlen hsig hnes2 hwhole, commitLoad_wired hcb, populate_eq, parseHeader_eq]
    simp only [nes2, beq_iff_eq]
    rfl

/-- Settles O32, one test of the load per clause. -/
theorem loadStops : Obligations.LoadStops := by
  unfold Obligations.LoadStops
  intro s
  refine ⟨exec_loadCart_loaded, exec_loadCart_unreadable, ?_⟩
  intro b hl hop at' signature nes2Refused needed
  have hexec := exec_loadCart_bytes hl hop
  have hsig : hasSignature b = true ↔ signature := hasSignature_iff b
  have hnes2 : (parseHeader b).format = .nes2 ∧ s.config.nes2Policy = .refuse ↔ nes2Refused :=
    and_congr_left' (format_eq_nes2_iff b)
  rw [hexec, ← hsig, ← hnes2]
  refine ⟨fun hshort => ?_, fun hlen hunsigned => ?_, fun hlen hsigned href => ?_, fun hlen hsigned href hshort => ?_,
    fun hlen hsigned href hwhole => ?_⟩
  · exact congrArg finish (loadBytes_short s hshort)
  · exact congrArg finish (loadBytes_unsigned s hlen hunsigned)
  · exact congrArg finish (loadBytes_refused s hlen hsigned href)
  · exact congrArg finish (loadBytes_truncated hlen hsigned href hshort)
  · obtain ⟨hloaded, hheader⟩ := commitLoad_header (parseHeader b) b s
    exact ⟨_, parseHeader b, congrArg finish (loadBytes_whole hlen hsigned href hwhole), hloaded, hheader, imageFormat_eq b⟩

end Sys2Proof.Machine
end

section
/-!
SUPPORT. The cartridge once loaded (spec 41 R160, R162): only a PPU-space write into its window changes it, and only in
CHR-RAM.
-/
namespace Sys2Proof.Machine

/-! ## What may change -/

/-- CHR-ROM stays the same bytes, CHR-RAM stays CHR-RAM (41 R160). -/
def ChrStore.RamOnly : ChrStore → ChrStore → Prop
  | .rom bytes, chr => chr = .rom bytes
  | .ram _, chr => ∃ cells, chr = .ram cells

theorem ChrStore.RamOnly.refl (chr : ChrStore) : ChrStore.RamOnly chr chr := by
  cases chr with
  | rom bytes => exact rfl
  | ram cells => exact ⟨cells, rfl⟩

theorem ChrStore.RamOnly.trans {c d e : ChrStore} (h : ChrStore.RamOnly c d) (h' : ChrStore.RamOnly d e) :
    ChrStore.RamOnly c e := by
  cases c with
  | rom bytes => cases h; exact h'
  | ram cells => obtain ⟨_, rfl⟩ := h; exact h'

theorem ChrStore.ramOnly_write (chr : ChrStore) (off : Nat) (v : Byte) : ChrStore.RamOnly chr (ChrStore.write chr off v) := by
  cases chr with
  | rom bytes => exact rfl
  | ram cells => exact ⟨_, rfl⟩

/-- The cartridge of `t` is that of `s` but for the contents of CHR-RAM. -/
structure State.CartKept (s t : State) : Prop where
  setup : t.cart = { s.cart with chr := t.cart.chr }
  chr : ChrStore.RamOnly s.cart.chr t.cart.chr

theorem State.CartKept.of_eq {s t : State} (h : t.cart = s.cart) : s.CartKept t := ⟨by rw [h], h ▸ .refl _⟩

theorem State.CartKept.trans {s t u : State} (h : s.CartKept t) (h' : t.CartKept u) : s.CartKept u :=
  ⟨by rw [h'.setup, h.setup], h.chr.trans h'.chr⟩

/-- Two operations in sequence, the second left out where the first is abandoned (60 R291). -/
theorem State.CartKept.bind {s : State} {r : Halting State} {g : State → Halting State} (hr : s.CartKept (endState r))
    (hg : ∀ t : State, t.CartKept (endState (g t))) : s.CartKept (endState (r.bind g)) := by
  cases r with
  | error t => exact hr
  | ok t => exact hr.trans (hg t)

/-! ## PPU-space accesses -/

theorem replyWith_ppuRead_cart (a : Addr) (s : State) : (endState (replyWith (ppuRead a s))).cart = s.cart := by
  rcases ppuRead_sameOutside a s with ⟨b, t, h, ht⟩ | ⟨t, h, ht⟩ <;> rw [h] <;> exact ht.cart

theorem ppuWrite_cartKept (a : Addr) (d : Byte) (s : State) : s.CartKept (ppuWrite a d s) := by
  rw [ppuWrite_eq]
  unfold State.ppuStore
  simp only
  split
  · exact .of_eq rfl
  · split
    · exact ⟨rfl, ChrStore.ramOnly_write _ _ d⟩
    · exact .of_eq rfl
    · exact .of_eq rfl

/-- A write outside the cartridge's window changes nothing of it. -/
theorem ppuWrite_cart_of_above {a : Addr} (hlo : 0x2000 ≤ a.toNat) (hhi : a.toNat < 0x4000) (d : Byte) (s : State) :
    (ppuWrite a d s).cart = s.cart := by
  rw [ppuWrite_eq]
  simp only [State.ppuStore, addr14_of_lt hhi]
  split
  · rfl
  · split
    · next hr =>
      obtain ⟨-, ha⟩ := ppuResponder_cartPpu hr
      omega
    · rfl
    · rfl

/-! ## CPU transactions -/

theorem readRegister_cart (r : Nat) (s : State) : (endState (replyWith (readRegister r s))).cart = s.cart := by
  unfold readRegister
  split
  · rfl
  · rfl
  · unfold readData
    rcases ppuRead_sameOutside (Loopy.ppuAddress s.ppu.v) s with ⟨b, t, h, ht⟩ | ⟨t, h, ht⟩ <;> simp only [h]
    · split <;> exact ht.cart
    · exact ht.cart
  · rfl

theorem cpuRead_cart (a : Addr) (s : State) : (endState (cpuTransaction (.read a) s)).cart = s.cart := by
  by_cases ha : 0x2000 ≤ a.toNat ∧ a.toNat ≤ 0x3FFF
  · rw [cpuTransaction, cpuBusRead_register a s ha.1 ha.2]
    exact readRegister_cart _ _
  · rw [cpuTransaction, cpuBusRead_memory a s (by omega)]
    split
    · split <;> rfl
    · rfl
    · rfl

/-- Of the registers only Data writes PPU space (42 R192). -/
theorem writeRegister_cart {r : Nat} (hr : r < 7) (d : Byte) (s : State) : (writeRegister r d s).cart = s.cart := by
  interval_cases r <;> rfl

theorem cpuBusWrite_memory_cart {a : Addr} (ha : a.toNat < 0x2000 ∨ 0x3FFF < a.toNat) (d : Byte) (s : State) :
    (cpuBusWrite a d s).cart = s.cart := by
  rw [cpuBusWrite_memory a d s ha]
  split <;> rfl

/-- A CPU write that selects no Data register keeps the cartridge. -/
theorem cpuWrite_cart {a : Addr} (ha : 0x2000 ≤ a.toNat → a.toNat ≤ 0x3FFF → a.toNat % 8 ≠ 7) (d : Byte) (s : State) :
    (endState (cpuTransaction (.write a d) s)).cart = s.cart := by
  by_cases hwin : 0x2000 ≤ a.toNat ∧ a.toNat ≤ 0x3FFF
  · have hr : a.toNat % 8 < 7 := by
      have := ha hwin.1 hwin.2
      omega
    rw [cpuTransaction, cpuBusWrite_register a d s hwin.1 hwin.2, regIndex_eq]
    exact writeRegister_cart hr d _
  · exact cpuBusWrite_memory_cart (by omega) d s

theorem writeRegister_cartKept (r : Nat) (d : Byte) (s : State) : s.CartKept (writeRegister r d s) := by
  unfold writeRegister
  split
  case h_8 => exact (ppuWrite_cartKept (Loopy.ppuAddress s.ppu.v) d s).trans (.of_eq rfl)
  all_goals exact .of_eq rfl

theorem cpuTransaction_cartKept (txn : CpuTxn) (s : State) : s.CartKept (endState (cpuTransaction txn s)) := by
  cases txn with
  | read a => exact .of_eq (cpuRead_cart a s)
  | write a d =>
    by_cases hwin : 0x2000 ≤ a.toNat ∧ a.toNat ≤ 0x3FFF
    · have hclaims : s.CartKept s.ppuClaims := .of_eq rfl
      rw [cpuTransaction, cpuBusWrite_register a d s hwin.1 hwin.2]
      exact hclaims.trans (writeRegister_cartKept _ d _)
    · exact .of_eq (cpuBusWrite_memory_cart (by omega) d s)

theorem runBatch_cartKept (txns : List CpuTxn) : ∀ s : State, s.CartKept (endState (runBatch txns s)) := by
  induction txns with
  | nil => exact fun _ => .of_eq rfl
  | cons txn txns ih =>
    intro s
    rw [runBatch_cons]
    exact (cpuTransaction_cartKept txn s).bind ih

/-! ## The system manager -/

theorem clock_cart (s : State) : (endState (clock s)).cart = s.cart := (clock_sameOutside s).cart

theorem clocks_cartKept (n : Nat) : ∀ s : State, s.CartKept (endState (clocks n s)) := by
  induction n with
  | zero => exact fun _ => .of_eq rfl
  | succ n ih =>
    intro s
    rw [clocks_succ]
    exact (State.CartKept.of_eq (clock_cart s)).bind ih

theorem deliverNmi_cart (s : State) : (deliverNmi s).cart = s.cart := by
  unfold deliverNmi
  split <;> rfl

theorem cpuClock_cartKept (s : State) : s.CartKept (endState (cpuClock s)) := by
  have hcall : s.CartKept (callCpu .clock (dropBatch s)) := .of_eq rfl
  exact hcall.trans (runBatch_cartKept (nextBatch s) _)

theorem systemStep_cartKept (s : State) : s.CartKept (endState (systemStep s)) := by
  by_cases hr : s.running = true
  · rw [systemStep_running hr]
    exact (clocks_cartKept 3 s).bind fun t => (State.CartKept.of_eq (deliverNmi_cart t)).trans (cpuClock_cartKept _)
  · rw [systemStep, if_neg hr]
    exact .of_eq rfl

theorem powerOn_cart (s : State) : (powerOn s).cart = s.cart := by
  unfold powerOn
  split <;> rfl

/-! ## Every instruction -/

/-- The rows that can write CHR-RAM: PPU_WR_CHR, the Data port, and the collaborator's batch (41 R162). -/
inductive Instr.StoresChr : Instr → Prop
  | ppuWrChr (a : Addr) (d : Byte) : Instr.StoresChr (.ppuWrChr a d)
  | cpuWrReg7 (a : Addr) (d : Byte) : Instr.StoresChr (.cpuWrReg7 a d)
  | sysStep : Instr.StoresChr .sysStep

/-- A register row other than Data's. -/
theorem register_ne_seven {a v : Addr} (hv : v.toNat / 8 * 8 = 0x2000) (h7 : v.toNat % 8 ≠ 7)
    (h : addrMatches 0xE007 v a = true) : a.toNat % 8 ≠ 7 :=
  ((addrMatches_register a hv).1 h).2 ▸ h7

/-- With a cartridge loaded an instruction keeps it, but for CHR-RAM under the rows that can write it. -/
theorem exec_cart {i : Instr} {s : State} (hwf : i.wf = true) (hl : s.cart.loaded = true) :
    ∃ t, exec i s = .next t ∧ (t.cart = s.cart ∨ Instr.StoresChr i ∧ s.CartKept t) := by
  cases i with
  | cpuRdWram a | cpuRdReg0 a | cpuRdReg1 a | cpuRdReg2 a | cpuRdReg3 a | cpuRdReg4 a | cpuRdReg5 a | cpuRdReg6 a
  | cpuRdReg7 a | cpuRdOpen a | cpuRdPrg a => exact ⟨_, rfl, .inl (cpuRead_cart a s)⟩
  | cpuWrWram a d =>
    have ha := (addrMatches_lowBlock a).1 hwf
    exact ⟨_, rfl, .inl (cpuWrite_cart (by omega) d s)⟩
  | cpuWrReg0 a d | cpuWrReg1 a d | cpuWrReg2 a d | cpuWrReg3 a d | cpuWrReg4 a d | cpuWrReg5 a d | cpuWrReg6 a d =>
    exact ⟨_, rfl, .inl (cpuWrite_cart (fun _ _ => register_ne_seven (by rfl) (by decide) hwf) d s)⟩
  | cpuWrReg7 a d => exact ⟨_, rfl, .inr ⟨.cpuWrReg7 a d, cpuTransaction_cartKept (.write a d) s⟩⟩
  | cpuWrOpen a d =>
    have ha := (addrMatches_open a).1 hwf
    exact ⟨_, rfl, .inl (cpuWrite_cart (by omega) d s)⟩
  | cpuWrPrg a d =>
    have ha := (addrMatches_prg a).1 hwf
    exact ⟨_, rfl, .inl (cpuWrite_cart (by omega) d s)⟩
  | ppuRdChr a | ppuRdNt a | ppuRdPal a => exact ⟨_, rfl, .inl (replyWith_ppuRead_cart a s)⟩
  | ppuWrChr a d => exact ⟨_, rfl, .inr ⟨.ppuWrChr a d, ppuWrite_cartKept a d s⟩⟩
  | ppuWrNt a d =>
    obtain ⟨hlo, hhi⟩ := (nametableRow_iff a).1 hwf
    exact ⟨_, rfl, .inl (ppuWrite_cart_of_above hlo (by omega) d s)⟩
  | ppuWrPal a d =>
    obtain ⟨hlo, hhi⟩ := (addrMatches_palette a).1 hwf
    exact ⟨_, rfl, .inl (ppuWrite_cart_of_above (by omega) hhi d s)⟩
  | ppuClock => exact ⟨_, rfl, .inl (clock_cart s)⟩
  | sysStep => exact ⟨_, rfl, .inr ⟨.sysStep, systemStep_cartKept s⟩⟩
  | reset => exact ⟨_, rfl, .inl rfl⟩
  | powerOn => exact ⟨_, rfl, .inl (powerOn_cart s)⟩
  | loadCart => exact ⟨_, exec_loadCart_loaded hl, .inl rfl⟩
  | setRun run => exact ⟨_, rfl, .inl rfl⟩
  | reservedOpAB op d a | reservedOpCF op d a => exact ⟨_, rfl, .inl rfl⟩

/-- Settles O33: every row keeps the cartridge but those that can write CHR-RAM, which keep all the rest of it. -/
theorem cartridgeImmutable : Obligations.CartridgeImmutable := by
  unfold Obligations.CartridgeImmutable
  intro i s t hwf hl ht
  obtain ⟨u, hu, hcart⟩ := exec_cart hwf hl
  cases hu.symm.trans ht
  have hkept : s.CartKept t := hcart.elim .of_eq And.right
  refine ⟨hkept.setup, fun bytes hrom => ?_, fun cells hram => ?_, fun hchr hdata hstep => ?_⟩
  · have hchr := hkept.chr
    rw [hrom] at hchr
    exact hchr
  · have hchr := hkept.chr
    rw [hram] at hchr
    exact hchr
  · rcases hcart with hsame | ⟨hstores, -⟩
    · exact hsame
    · cases hstores with
      | ppuWrChr a d => exact absurd rfl (hchr a d)
      | cpuWrReg7 a d => exact absurd rfl (hdata a d)
      | sysStep => exact absurd rfl hstep

end Sys2Proof.Machine
end

section
/-!
SUPPORT. Mapper offsets against the storage (spec 41 R171): in a state of the invariant they are in bounds, but for a CPU read
of PRG with no PRG bank, and no other access raises the bounds fault.
-/
namespace Sys2Proof.Machine

/-! ## Offsets -/

/-- A PRG offset is inside PRG exactly when there is a bank for it: one bank is 16 KiB, two are the whole window. -/
theorem mapCpu_lt_iff {c : Cart} (h : Cart.Inv c) (hl : c.loaded = true) {a : Addr} (ha : 0x8000 ≤ a.toNat) :
    (mapCpu c a).1 < c.prg.length ↔ 1 ≤ Cart.prgBanks c := by
  rw [mapCpu_prg c ha, h.prgLength hl]
  show (if 1 < Cart.prgBanks c then a.toNat % 0x8000 else a.toNat % 0x4000) < 16384 * Cart.prgBanks c ↔ _
  split <;> omega

theorem Cart.Inv.chrInBounds {c : Cart} (h : Cart.Inv c) : Cart.chrInBounds c := by
  intro hl off hoff
  cases hc : c.chr with
  | rom bytes =>
    obtain ⟨hbanks, hlen⟩ := h.romLength bytes hl hc
    have hin : off < bytes.length := by omega
    simp [ChrStore.byte?, hin]
  | ram cells => simp [ChrStore.byte?_ram cells hoff]

/-! ## The bounds fault -/

/-- The mark is no bounds fault, or one of the PRG window of a cartridge with no PRG bank. -/
def Cart.PrgFaultOnly (c : Cart) (mark : Option Fault) : Prop :=
  ∀ a off, mark = some (.mapperOffsetOutOfBounds a off) →
    c.loaded = true ∧ Cart.prgBanks c = 0 ∧ 0x8000 ≤ a.toNat

/-- The contents of CHR play no part in it. -/
theorem State.CartKept.prgFaultOnly_iff {s t : State} (h : s.CartKept t) {mark : Option Fault} :
    Cart.PrgFaultOnly t.cart mark ↔ Cart.PrgFaultOnly s.cart mark := by
  rw [h.setup]; exact Iff.rfl

/-! ## Accesses that keep the fault mark -/

theorem ppuWrite_fault (a : Addr) (d : Byte) (s : State) : (ppuWrite a d s).fault = s.fault := by
  rw [ppuWrite_eq]
  unfold State.ppuStore
  simp only
  split
  · rfl
  · split <;> rfl

theorem writeRegister_fault (r : Nat) (d : Byte) (s : State) : (writeRegister r d s).fault = s.fault := by
  unfold writeRegister
  split
  case h_8 => exact ppuWrite_fault (Loopy.ppuAddress s.ppu.v) d s
  all_goals rfl

theorem cpuWrite_fault (a : Addr) (d : Byte) (s : State) :
    (endState (cpuTransaction (.write a d) s)).fault = s.fault := by
  by_cases hwin : 0x2000 ≤ a.toNat ∧ a.toNat ≤ 0x3FFF
  · rw [cpuTransaction, cpuBusWrite_register a d s hwin.1 hwin.2]
    exact writeRegister_fault _ d _
  · rw [cpuTransaction, cpuBusWrite_memory a d s (by omega)]
    split <;> rfl

theorem deliverNmi_fault (s : State) : (deliverNmi s).fault = s.fault := by
  unfold deliverNmi
  split <;> rfl

section InBounds
variable {s : State} (h : Cart.chrInBounds s.cart)
include h

theorem replyWith_ppuRead_fault (a : Addr) : (endState (replyWith (ppuRead a s))).fault = s.fault := by
  rw [ppuRead_eq a s h]; rfl

theorem readRegister_fault (r : Nat) : (endState (replyWith (readRegister r s))).fault = s.fault := by
  unfold readRegister
  split
  · rfl
  · rfl
  · simp only [readData, ppuRead_eq _ s h]
    split <;> rfl
  · rfl

/-- Clocks complete and change the PPU side alone. -/
theorem clocks_eq (n : Nat) : ∃ x y p, clocks n s = .ok (s.withPpuSide x y p) := by
  induction n generalizing s with
  | zero => exact ⟨_, _, _, rfl⟩
  | succ n ih =>
    obtain ⟨x, y, hclock⟩ := clock_eq s h
    obtain ⟨x', y', p, hclocks⟩ := ih (s := s.withPpuSide x y s.dotPpu) h
    exact ⟨x', y', p, by rw [clocks_succ, hclock]; exact hclocks⟩

end InBounds

/-! ## Operations that may raise a fault -/

theorem cpuRead_prgFaultOnly {s : State} (h : s.Inv) (hmark : Cart.PrgFaultOnly s.cart s.fault) (a : Addr) :
    Cart.PrgFaultOnly s.cart (endState (cpuTransaction (.read a) s)).fault := by
  by_cases hwin : 0x2000 ≤ a.toNat ∧ a.toNat ≤ 0x3FFF
  · rw [cpuTransaction, cpuBusRead_register a s hwin.1 hwin.2, readRegister_fault (s := s.ppuClaims) h.cart.chrInBounds]
    exact hmark
  by_cases hprg : s.cart.loaded = true ∧ 0x8000 ≤ a.toNat
  · obtain ⟨hl, ha⟩ := hprg
    cases hb : s.cart.prg[(mapCpu s.cart a).1]? with
    | some b => rw [cpuRead_prg hl ha rfl hb]; exact hmark
    | none =>
      have hout := List.getElem?_eq_none_iff.1 hb
      have hbanks := (mapCpu_lt_iff h.cart hl ha).not.1 (Nat.not_lt.2 hout)
      rw [cpuRead_prg_outside hl ha rfl hout]
      rintro _ _ ⟨⟩
      exact ⟨hl, by omega, ha⟩
  · have hno : a.toNat < 0x8000 ∨ s.cart.loaded = false :=
      (not_and_or.1 hprg).symm.imp Nat.lt_of_not_le Bool.eq_false_iff.2
    rw [cpuRead_noPrg (by omega) hno rfl]
    exact hmark

theorem cpuTransaction_prgFaultOnly (txn : CpuTxn) {s : State} (h : s.Inv) (hmark : Cart.PrgFaultOnly s.cart s.fault) :
    Cart.PrgFaultOnly s.cart (endState (cpuTransaction txn s)).fault := by
  cases txn with
  | read a => exact cpuRead_prgFaultOnly h hmark a
  | write a d => rw [cpuWrite_fault]; exact hmark

theorem runBatch_prgFaultOnly (txns : List CpuTxn) {s : State} (h : s.Inv) (hmark : Cart.PrgFaultOnly s.cart s.fault) :
    Cart.PrgFaultOnly s.cart (endState (runBatch txns s)).fault := by
  induction txns generalizing s with
  | nil => exact hmark
  | cons txn txns ih =>
    have hfirst := cpuTransaction_prgFaultOnly txn h hmark
    have hinv := cpuTransaction_keepsInv txn s h
    have hkept := cpuTransaction_cartKept txn s
    rw [runBatch_cons]
    cases ht : cpuTransaction txn s with
    | error t => rw [ht] at hfirst; exact hfirst
    | ok t =>
      rw [ht] at hfirst hinv hkept
      exact hkept.prgFaultOnly_iff.1 (ih hinv (hkept.prgFaultOnly_iff.2 hfirst))

theorem cpuClock_prgFaultOnly {s : State} (h : s.Inv) (hmark : Cart.PrgFaultOnly s.cart s.fault) :
    Cart.PrgFaultOnly s.cart (endState (cpuClock s)).fault :=
  runBatch_prgFaultOnly (nextBatch s) (s := callCpu .clock (dropBatch s)) (h.withMarks _ _ _ _) hmark

/-- The three clocks and the delivery keep the cartridge and the mark, so a fault is the batch's. -/
theorem systemStep_prgFaultOnly {s : State} (h : s.Inv) (hmark : Cart.PrgFaultOnly s.cart s.fault) :
    Cart.PrgFaultOnly s.cart (endState (systemStep s)).fault := by
  by_cases hr : s.running = true
  · obtain ⟨x, y, p, hclocks⟩ := clocks_eq h.cart.chrInBounds 3
    have hinv := clocks_keepsInv 3 s h
    rw [hclocks] at hinv
    have hbatch := cpuClock_prgFaultOnly (deliverNmi_inv hinv)
    rw [deliverNmi_cart, deliverNmi_fault] at hbatch
    rw [systemStep_running hr, hclocks]
    exact hbatch hmark
  · rw [systemStep, if_neg hr]; exact hmark

theorem powerOn_fault (s : State) : (powerOn s).fault = s.fault := by
  unfold powerOn
  split <;> rfl

theorem runCallbacks_fault (cbs : List Callback) (s : State) : (runCallbacks cbs s).fault = s.fault := by
  induction cbs generalizing s with
  | nil => rfl
  | cons cb cbs ih => cases cb; exact ih (resetBoth s)

/-- A load raises load faults only (41 R163, R164, R167). -/
theorem loadBytes_prgFaultOnly (b : List Byte) {c : Cart} {s : State} (hmark : Cart.PrgFaultOnly c s.fault) :
    Cart.PrgFaultOnly c (endState (loadBytes b s)).fault := by
  unfold loadBytes
  split
  · exact nofun
  split
  · exact nofun
  simp only
  split
  · exact hmark
  split
  · exact nofun
  · exact (runCallbacks_fault s.cart.callbacks _).symm ▸ hmark

theorem loadCartridge_prgFaultOnly (image : Image) {c : Cart} {s : State} (hmark : Cart.PrgFaultOnly c s.fault) :
    Cart.PrgFaultOnly c (endState (loadCartridge image s)).fault := by
  unfold loadCartridge
  split
  · exact hmark
  · cases image with
    | unreadable => exact nofun
    | bytes b => exact loadBytes_prgFaultOnly b hmark

/-! ## Every instruction -/

theorem exec_prgFaultOnly (i : Instr) {s : State} (h : s.Inv) (hmark : Cart.PrgFaultOnly s.cart s.fault) :
    ∃ t, exec i s = .next t ∧ Cart.PrgFaultOnly s.cart t.fault := by
  have hkeep : ∀ {t : State}, t.fault = s.fault → Cart.PrgFaultOnly s.cart t.fault := fun ht => ht ▸ hmark
  cases i with
  | cpuRdWram a | cpuRdReg0 a | cpuRdReg1 a | cpuRdReg2 a | cpuRdReg3 a | cpuRdReg4 a | cpuRdReg5 a | cpuRdReg6 a
  | cpuRdReg7 a | cpuRdOpen a | cpuRdPrg a => exact ⟨_, rfl, cpuRead_prgFaultOnly h hmark a⟩
  | cpuWrWram a d | cpuWrReg0 a d | cpuWrReg1 a d | cpuWrReg2 a d | cpuWrReg3 a d | cpuWrReg4 a d | cpuWrReg5 a d
  | cpuWrReg6 a d | cpuWrReg7 a d | cpuWrOpen a d | cpuWrPrg a d => exact ⟨_, rfl, hkeep (cpuWrite_fault a d s)⟩
  | ppuRdChr a | ppuRdNt a | ppuRdPal a => exact ⟨_, rfl, hkeep (replyWith_ppuRead_fault h.cart.chrInBounds a)⟩
  | ppuWrChr a d | ppuWrNt a d | ppuWrPal a d => exact ⟨_, rfl, hkeep (ppuWrite_fault a d s)⟩
  | ppuClock =>
    obtain ⟨x, y, hclock⟩ := clock_eq s h.cart.chrInBounds
    exact ⟨_, congrArg finish hclock, hkeep rfl⟩
  | sysStep => exact ⟨_, rfl, systemStep_prgFaultOnly h hmark⟩
  | reset => exact ⟨_, rfl, hkeep rfl⟩
  | powerOn => exact ⟨_, rfl, hkeep (powerOn_fault s)⟩
  | loadCart => exact ⟨_, rfl, loadCartridge_prgFaultOnly s.env.operand hmark⟩
  | setRun run => exact ⟨_, rfl, hkeep rfl⟩
  | reservedOpAB op d a | reservedOpCF op d a => exact ⟨_, rfl, hkeep rfl⟩

/-- Settles O34: the offsets against the lengths the load protocol fixes, and the bounds fault by the cases of a step. -/
theorem offsetsInBounds : Obligations.OffsetsInBounds := by
  unfold Obligations.OffsetsInBounds
  intro s h
  refine ⟨fun hl a ha => mapCpu_lt_iff h.cart hl ha, h.cart.chrInBounds, fun t a off ht hclean hfault => ?_⟩
  have hmark : Cart.PrgFaultOnly s.cart s.fault := hclean ▸ nofun
  suffices hend : Cart.PrgFaultOnly s.cart t.fault from hend a off hfault
  rcases step_cases s with ⟨-, hs⟩ | ⟨r, rest, -, ⟨-, hs⟩ | ⟨-, -, hs⟩ | ⟨-, i, -, hs⟩⟩
  · cases hs.symm.trans ht; exact hmark
  · cases hs.symm.trans ht; exact hmark
  · cases hs.symm.trans ht; exact hmark
  · obtain ⟨u, hu, hend⟩ := exec_prgFaultOnly i (s := takeRequest r rest s) (h.withMarks _ _ _ _) hmark
    cases (hs.trans hu).symm.trans ht
    exact hend

end Sys2Proof.Machine
end

section
/-!
SUPPORT. The PPU registers on the CPU bus (spec 42 R180-R194): the operands of the register writes as numbers (30 R94), and
the access each row makes in the register window.
-/
namespace Sys2Proof.Machine

/-! ## Loopy addresses field by field (10 R27) -/

section Fields
variable (fy fy' : BitVec 3) (ny ny' nx nx' : Bool) (cy cy' cx cx' : BitVec 5)

theorem Loopy.ofFields_and :
    Loopy.ofFields fy ny nx cy cx &&& Loopy.ofFields fy' ny' nx' cy' cx' =
      Loopy.ofFields (fy &&& fy') (ny && ny') (nx && nx') (cy &&& cy') (cx &&& cx') := by
  apply BitVec.eq_of_getLsbD_eq
  intro i _
  simp only [BitVec.getLsbD_and, Loopy.getLsbD_ofFields]
  split_ifs <;> rfl

theorem Loopy.ofFields_or :
    Loopy.ofFields fy ny nx cy cx ||| Loopy.ofFields fy' ny' nx' cy' cx' =
      Loopy.ofFields (fy ||| fy') (ny || ny') (nx || nx') (cy ||| cy') (cx ||| cx') := by
  apply BitVec.eq_of_getLsbD_eq
  intro i _
  simp only [BitVec.getLsbD_or, Loopy.getLsbD_ofFields]
  split_ifs <;> rfl

theorem Loopy.ofFields_toNat :
    (Loopy.ofFields fy ny nx cy cx).toNat =
      fy.toNat * 2 ^ 12 + ny.toNat * 2 ^ 11 + nx.toNat * 2 ^ 10 + cy.toNat * 2 ^ 5 + cx.toNat := by
  show (fy ++ BitVec.ofBool ny ++ BitVec.ofBool nx ++ cy ++ cx : BitVec (3 + 1 + 1 + 5 + 5)).toNat = _
  simp only [BitVec.toNat_append, ← Nat.shiftLeft_add_eq_or_of_lt (BitVec.isLt _)]
  simp only [Nat.shiftLeft_eq, BitVec.toNat_ofBool]
  omega

end Fields

/-- A mask of whole fields keeps those fields and clears the others. -/
theorem Loopy.and_ofFields (t : Loopy) (fy : BitVec 3) (ny nx : Bool) (cy cx : BitVec 5) :
    t &&& Loopy.ofFields fy ny nx cy cx =
      Loopy.ofFields (Loopy.fineY t &&& fy) (Loopy.nametableY t && ny) (Loopy.nametableX t && nx) (Loopy.coarseY t &&& cy)
        (Loopy.coarseX t &&& cx) := by
  rw [← Loopy.ofFields_and, Loopy.ofFields_fields]

/-! ## Register write operands (30 R94) -/

section Operands
variable (t : Loopy) (d : Byte)

theorem lowThreeBits_toNat : (d.extractLsb' 0 3).toNat = d.toNat % 8 := BitVec.extractLsb'_toNat ..

theorem highFiveBits_toNat : (d.extractLsb' 3 5).toNat = d.toNat / 8 := by
  have hd := d.isLt
  rw [BitVec.extractLsb'_toNat, Nat.shiftRight_eq_div_pow]
  omega

/-- A byte under a mask of its low `k` bits, in the width of `t`. -/
theorem lowBits_toNat {m : Loopy} (k : Nat) (hm : m.toNat = 2 ^ k - 1) :
    (d.setWidth 15 &&& m).toNat = d.toNat % 2 ^ k := by
  rw [BitVec.toNat_and, hm, Nat.and_two_pow_sub_one_eq_mod, BitVec.toNat_setWidth_of_le (by decide)]

/-- The nametable bits of Control at their place in `t` (42 R181). -/
theorem controlBits_eq :
    (d.setWidth 15 &&& (0x3 : Loopy)) <<< 10 = Loopy.ofFields 0 (d.getLsbD 1) (d.getLsbD 0) 0 0 := by
  have hbit0 : (d.getLsbD 0).toNat = d.toNat / 2 ^ 0 % 2 := Nat.toNat_testBit d.toNat 0
  have hbit1 : (d.getLsbD 1).toNat = d.toNat / 2 ^ 1 % 2 := Nat.toNat_testBit d.toNat 1
  apply BitVec.eq_of_toNat_eq
  rw [Loopy.ofFields_toNat, hbit0, hbit1, BitVec.toNat_shiftLeft, lowBits_toNat d 2 rfl, Nat.shiftLeft_eq]
  simp only [BitVec.ofNat_eq_ofNat, BitVec.toNat_zero]
  omega

/-- The upper five bits of a byte at the place of `coarseX` (42 R188). -/
theorem coarseXBits_eq : BitVec.ofNat 15 (d.toNat / 8) = Loopy.ofFields 0 false false 0 (d.extractLsb' 3 5) := by
  have hd := d.isLt
  apply BitVec.eq_of_toNat_eq
  rw [Loopy.ofFields_toNat, highFiveBits_toNat, BitVec.toNat_ofNat, Nat.mod_eq_of_lt (by omega)]
  exact (Nat.zero_add _).symm

/-- The lower three bits of a byte at the place of `fineY`, the upper five at that of `coarseY` (42 R188). -/
theorem scrollYBits_eq :
    BitVec.ofNat 15 (d.toNat % 8 * 2 ^ 12 + d.toNat / 8 * 2 ^ 5) =
      Loopy.ofFields (d.extractLsb' 0 3) false false (d.extractLsb' 3 5) 0 := by
  have hd := d.isLt
  apply BitVec.eq_of_toNat_eq
  rw [Loopy.ofFields_toNat, lowThreeBits_toNat, highFiveBits_toNat, BitVec.toNat_ofNat, Nat.mod_eq_of_lt (by omega)]
  simp

theorem scrollFineX_eq : scrollFineX d = BitVec.ofNat 3 (d.toNat % 8) := by
  apply BitVec.eq_of_toNat_eq
  rw [scrollFineX, lowThreeBits_toNat, BitVec.toNat_ofNat, Nat.mod_mod]

/-! Each mask is whole fields, all ones or zero. -/

theorem controlTransfer_eq :
    controlTransfer t d = (t &&& (0x73FF : Loopy)) ||| ((d.setWidth 15 &&& (0x3 : Loopy)) <<< 10) := by
  have hmask : (0x73FF : Loopy) = Loopy.ofFields (.allOnes 3) false false (.allOnes 5) (.allOnes 5) := rfl
  rw [controlBits_eq, hmask, Loopy.and_ofFields, Loopy.ofFields_or]
  simp [-BitVec.reduceAllOnes, controlTransfer, Loopy.withNametableX, Loopy.withNametableY]

theorem scrollFirst_eq : scrollFirst t d = (t &&& (0x7FE0 : Loopy)) ||| BitVec.ofNat 15 (d.toNat / 8) := by
  have hmask : (0x7FE0 : Loopy) = Loopy.ofFields (.allOnes 3) true true (.allOnes 5) 0 := rfl
  rw [coarseXBits_eq, hmask, Loopy.and_ofFields, Loopy.ofFields_or]
  simp [-BitVec.reduceAllOnes, scrollFirst, Loopy.withCoarseX]

theorem scrollSecond_eq :
    scrollSecond t d = (t &&& (0x0C1F : Loopy)) ||| BitVec.ofNat 15 (d.toNat % 8 * 2 ^ 12 + d.toNat / 8 * 2 ^ 5) := by
  have hmask : (0x0C1F : Loopy) = Loopy.ofFields 0 true true 0 (.allOnes 5) := rfl
  rw [scrollYBits_eq, hmask, Loopy.and_ofFields, Loopy.ofFields_or]
  simp [-BitVec.reduceAllOnes, scrollSecond, Loopy.withCoarseY, Loopy.withFineY]

theorem addressFirst_eq : addressFirst t d = BitVec.ofNat 15 (d.toNat % 64 * 256 + t.toNat % 256) := by
  have hlow : (t &&& 0x00FF).toNat = t.toNat % 2 ^ 8 := Nat.and_two_pow_sub_one_eq_mod t.toNat 8
  have hhigh : ((d.setWidth 15 &&& 0x3F) <<< 8 : Loopy).toNat = (d.toNat % 64) <<< 8 := by
    rw [BitVec.toNat_shiftLeft, lowBits_toNat d 6 rfl, Nat.shiftLeft_eq]
    omega
  have hlt : t.toNat % 2 ^ 8 < 2 ^ 8 := Nat.mod_lt _ (by decide)
  apply BitVec.eq_of_toNat_eq
  rw [addressFirst, BitVec.toNat_or, hhigh, hlow, ← Nat.shiftLeft_add_eq_or_of_lt hlt, Nat.shiftLeft_eq,
    BitVec.toNat_ofNat]
  omega

theorem addressSecond_eq : addressSecond t d = BitVec.ofNat 15 (t.toNat / 256 * 256 + d.toNat) := by
  have hhigh : (t &&& 0x7F00).toNat = (t.toNat / 256) <<< 8 :=
    (and_highMask_toNat t 8 rfl).trans (Nat.shiftLeft_eq _ _).symm
  apply BitVec.eq_of_toNat_eq
  rw [addressSecond, BitVec.toNat_or, hhigh, BitVec.toNat_setWidth_of_le (by decide),
    ← Nat.shiftLeft_add_eq_or_of_lt d.isLt, Nat.shiftLeft_eq, BitVec.toNat_ofNat]
  omega

end Operands

/-! ## Register reads (42 R183, R187, R189, R191) -/

/-- Registers 0, 1, 3, 5 and 6 are write-only (42 R189). -/
theorem readRegister_writeOnly {r : Nat} (hr : r ∈ [0, 1, 3, 5, 6]) (s : State) :
    readRegister r s = .ok (s.config.writeOnlyReadValue, s) := by
  fin_cases hr <;> rfl

/-- Settles O12: each row is the same register read, of a write-only register. -/
theorem writeOnlyRegisterRead : Obligations.WriteOnlyRegisterRead := by
  unfold Obligations.WriteOnlyRegisterRead
  intro s a hlo hhi
  have hread : ∀ {r : Nat}, r ∈ [0, 1, 3, 5, 6] → a.toNat % 8 = r →
      finish (cpuTransaction (.read a) s) = .next (s.ppuClaims.reply s.config.writeOnlyReadValue) :=
    fun hmem hr => (read_register hlo hhi hr).trans
      (congrArg (finish ∘ replyWith) (readRegister_writeOnly hmem s.ppuClaims))
  exact ⟨hread (by decide), hread (by decide), hread (by decide), hread (by decide), hread (by decide)⟩

/-- Clearing `vblank` clears bit 7 (42 R183). -/
theorem setBit_vblank_false (x : Byte) : setBit x 7 false = x &&& 0x7F := rfl

/-- Settles O13: the Status byte as flags over the draw, and its read clears bit 7 of Status and `w`. -/
theorem statusRead : Obligations.StatusRead := by
  unfold Obligations.StatusRead
  intro s a hlo hhi hr
  rw [← Ppu.statusByte_eq, ← setBit_vblank_false]
  exact read_register hlo hhi hr

/-- Settles O14, from the read of register 4. -/
theorem oamDataRead : Obligations.OamDataRead := by
  unfold Obligations.OamDataRead
  intro s a hlo hhi hr
  exact read_register hlo hhi hr

/-- The advance of `v`, as a number (42 R193). -/
theorem Ppu.advanceV_eq (p : Ppu) :
    p.advanceV = { p with v := BitVec.ofNat 15 (p.v.toNat + if p.ctrl.getLsbD 2 then 32 else 1) } := by
  rw [Ppu.advanceV, vramIncrement_eq]

section ReadData
variable {s : State} (h : Cart.chrInBounds s.cart)
include h

theorem readData_unbuffered (hb : s.config.dataReadBuffered = false) :
    readData s =
      .ok (s.ppuPeek (Loopy.ppuAddress s.ppu.v),
        { s with claimed := s.claimsAfterPpu (Loopy.ppuAddress s.ppu.v), ppu := s.ppu.advanceV }) := by
  simp only [readData, ppuRead_eq _ s h, hb]
  rfl

theorem readData_buffered (hb : s.config.dataReadBuffered = true) :
    readData s =
      .ok (if 0x3F00 ≤ (Loopy.ppuAddress s.ppu.v).toNat then s.ppuPeek (Loopy.ppuAddress s.ppu.v) else s.ppu.dataBuf,
        { s with
          claimed := s.claimsAfterPpu (Loopy.ppuAddress s.ppu.v)
          ppu := { s.ppu.advanceV with dataBuf := s.ppuPeek (Loopy.ppuAddress s.ppu.v) } }) := by
  simp only [readData, ppuRead_eq _ s h, hb]
  rfl

end ReadData

/-- Settles O15: the two forms of a Data read, its address and the advance of `v` as numbers. -/
theorem dataRead : Obligations.DataRead := by
  unfold Obligations.DataRead
  intro s a hlo hhi hr hchr va byte ppu claimed
  have hadvance : s.ppuClaims.ppu.advanceV = ppu := s.ppu.advanceV_eq
  have hva : Loopy.ppuAddress s.ppuClaims.ppu.v = va := Loopy.ppuAddress_eq s.ppu.v
  have haccess : ∀ {r : Halting (Byte × State)}, readData s.ppuClaims = r →
      finish (cpuTransaction (.read a) s) = finish (replyWith r) :=
    fun h => (read_register hlo hhi hr).trans (congrArg (finish ∘ replyWith) h)
  have hplain := readData_unbuffered (s := s.ppuClaims) hchr
  have hbuffered := readData_buffered (s := s.ppuClaims) hchr
  rw [hadvance, hva] at hplain hbuffered
  exact ⟨fun hb => haccess (hplain hb), fun hb => haccess (hbuffered hb)⟩

/-! ## Register writes (42 R181-R192) -/

section Updates
variable (d : Byte) (p : Ppu)

theorem Ppu.writeControl_eq :
    p.writeControl d =
      { p with ctrl := d, t := (p.t &&& (0x73FF : Loopy)) ||| ((d.setWidth 15 &&& (0x3 : Loopy)) <<< 10) } := by
  rw [← controlTransfer_eq]; rfl

/-- The pointer wraps at 256 (42 R186). -/
theorem Ppu.writeOamData_eq :
    p.writeOamData d =
      { p with
        oam := Memory.put p.oam p.oamAddr.toNat d
        oamAddr := BitVec.ofNat 8 ((p.oamAddr.toNat + 1) % 256) } := by
  have hadvance : BitVec.ofNat 8 ((p.oamAddr.toNat + 1) % 256) = p.oamAddr + 1 := by
    apply BitVec.eq_of_toNat_eq
    simp
  rw [hadvance]; rfl

variable {p}

theorem Ppu.writeScroll_first (hw : p.w = false) :
    p.writeScroll d =
      { p with
        fineX := BitVec.ofNat 3 (d.toNat % 8)
        t := (p.t &&& (0x7FE0 : Loopy)) ||| BitVec.ofNat 15 (d.toNat / 8)
        w := true } := by
  rw [Ppu.writeScroll, hw, scrollFirst_eq, scrollFineX_eq]; rfl

theorem Ppu.writeScroll_second (hw : p.w = true) :
    p.writeScroll d =
      { p with
        t := (p.t &&& (0x0C1F : Loopy)) ||| BitVec.ofNat 15 (d.toNat % 8 * 2 ^ 12 + d.toNat / 8 * 2 ^ 5)
        w := false } := by
  rw [Ppu.writeScroll, hw, scrollSecond_eq]; rfl

theorem Ppu.writeAddress_first (hw : p.w = false) :
    p.writeAddress d = { p with t := BitVec.ofNat 15 (d.toNat % 64 * 256 + p.t.toNat % 256), w := true } := by
  rw [Ppu.writeAddress, hw, addressFirst_eq]; rfl

theorem Ppu.writeAddress_second (hw : p.w = true) :
    p.writeAddress d =
      { p with
        t := BitVec.ofNat 15 (p.t.toNat / 256 * 256 + d.toNat)
        v := BitVec.ofNat 15 (p.t.toNat / 256 * 256 + d.toNat)
        w := false } := by
  rw [Ppu.writeAddress, hw, addressSecond_eq]; rfl

end Updates

/-- The write of a register that is one update of the PPU: beside it only the claim changes. -/
theorem write_register_of_update {s : State} {a : Addr} {d : Byte} {r : Nat} {f : Ppu → Ppu} {p : Ppu}
    (hlo : 0x2000 ≤ a.toNat) (hhi : a.toNat ≤ 0x3FFF) (hr : a.toNat % 8 = r)
    (hf : writeRegister r d s.ppuClaims = s.ppuClaims.mapPpu f) (hp : f s.ppu = p) :
    finish (cpuTransaction (.write a d) s) = .next { s.ppuClaims with ppu := p } := by
  rw [write_register hlo hhi hr, hf, ← hp]; rfl

/-- Settles O16: the write of Control, its transfer into `t` as a mask. -/
theorem controlWrite : Obligations.ControlWrite := by
  unfold Obligations.ControlWrite
  intro s a d hlo hhi hr
  exact write_register_of_update hlo hhi hr rfl (Ppu.writeControl_eq d s.ppu)

/-- Settles O17, from the writes of registers 1, 2 and 3. -/
theorem maskStatusOamAddrWrite : Obligations.MaskStatusOamAddrWrite := by
  unfold Obligations.MaskStatusOamAddrWrite
  intro s a d hlo hhi
  exact ⟨fun hr => write_register hlo hhi hr, fun hr => write_register hlo hhi hr, fun hr => write_register hlo hhi hr⟩

/-- Settles O18: the pointer's advance as a number, and the law of one store write. -/
theorem oamDataWrite : Obligations.OamDataWrite := by
  unfold Obligations.OamDataWrite
  intro s a d hlo hhi hr
  exact ⟨write_register_of_update hlo hhi hr rfl (Ppu.writeOamData_eq d s.ppu),
    fun k => storeByte_put .oam s.ppu.oam _ k d⟩

/-- Settles O19: the half of the write that `w` selects, its operands as numbers. -/
theorem scrollWrite : Obligations.ScrollWrite := by
  unfold Obligations.ScrollWrite
  intro s a d hlo hhi hr
  exact ⟨fun hw => write_register_of_update hlo hhi hr rfl (Ppu.writeScroll_first d hw),
    fun hw => write_register_of_update hlo hhi hr rfl (Ppu.writeScroll_second d hw)⟩

/-- Settles O20: the half of the write that `w` selects, its operands as numbers. -/
theorem addressWrite : Obligations.AddressWrite := by
  unfold Obligations.AddressWrite
  intro s a d hlo hhi hr
  exact ⟨fun hw => write_register_of_update hlo hhi hr rfl (Ppu.writeAddress_first d hw),
    fun hw => write_register_of_update hlo hhi hr rfl (Ppu.writeAddress_second d hw)⟩

/-- A PPU-space write changes palette RAM alone in the PPU (42 R197). -/
theorem ppuStore_ppu (s : State) (a : Addr) (d : Byte) : ∃ m, (s.ppuStore a d).ppu = { s.ppu with pal := m } := by
  unfold State.ppuStore
  simp only
  split
  · exact ⟨_, rfl⟩
  · split <;> exact ⟨s.ppu.pal, rfl⟩

/-- A Data write stores at the address in `v`, then advances `v` from its value before (42 R192, R193). -/
theorem writeData_eq (d : Byte) (s : State) :
    writeData d s =
      { s.ppuStore (Loopy.ppuAddress s.ppu.v) d with
        ppu := { (s.ppuStore (Loopy.ppuAddress s.ppu.v) d).ppu with v := s.ppu.advanceV.v } } := by
  obtain ⟨m, hm⟩ := ppuStore_ppu s (Loopy.ppuAddress s.ppu.v) d
  rw [writeData, ppuWrite_eq, State.mapPpu, hm]; rfl

/-- Settles O21: one PPU-space store and the advance of `v`, which no PPU-space byte depends on. -/
theorem dataWrite : Obligations.DataWrite := by
  unfold Obligations.DataWrite
  intro s a d hlo hhi hr va u t
  have hwrite := writeData_eq d s.ppuClaims
  rw [Ppu.advanceV_eq, Loopy.ppuAddress_eq] at hwrite
  refine ⟨(write_register hlo hhi hr).trans (congrArg Host.Outcome.next hwrite), fun x hx => ?_⟩
  have hkept : u.ppuPeek x = s.ppuClaims.ppuPeek x := ppuStore_peek_other s.ppuClaims va x d hx
  exact hkept

/-! ## Mirroring (42 R194) -/

/-- A CPU_RD word is one chain read, whatever its address class (30 R93). -/
theorem exec_decodeCpuRead (a : Addr) (s : State) :
    exec (decodeCpuRead a) s = finish (cpuTransaction (.read a) s) := by
  unfold decodeCpuRead
  split_ifs
  · rfl
  · unfold cpuReadRegister
    split <;> rfl
  · rfl
  · rfl

/-- A CPU_WR word is one chain write, whatever its address class (30 R93). -/
theorem exec_decodeCpuWrite (a : Addr) (d : Byte) (s : State) :
    exec (decodeCpuWrite a d) s = finish (cpuTransaction (.write a d) s) := by
  unfold decodeCpuWrite
  split_ifs
  · rfl
  · unfold cpuWriteRegister
    split <;> rfl
  · rfl
  · rfl

/-- Settles O22: both words are accesses to the register window, and select the same register. -/
theorem registerMirroring : Obligations.RegisterMirroring := by
  unfold Obligations.RegisterMirroring
  intro s a d hlo hhi base
  have hbase : base.toNat = 0x2000 + a.toNat % 8 := by
    rw [BitVec.toNat_ofNat]; omega
  have hblo : 0x2000 ≤ base.toNat := by omega
  have hbhi : base.toNat ≤ 0x3FFF := by omega
  have hmod : base.toNat % 8 = a.toNat % 8 := by omega
  refine ⟨fun i j hi hj => ?_, fun i j hi hj => ?_⟩
  · cases (decode_cpuRead a).symm.trans hi
    cases (decode_cpuRead base).symm.trans hj
    rw [exec_decodeCpuRead, exec_decodeCpuRead, read_register (by omega) hhi rfl, read_register hblo hbhi hmod]
  · cases (decode_cpuWrite a d).symm.trans hi
    cases (decode_cpuWrite base d).symm.trans hj
    rw [exec_decodeCpuWrite, exec_decodeCpuWrite, write_register (by omega) hhi rfl, write_register hblo hbhi hmod]

end Sys2Proof.Machine
end

section
/-!
SUPPORT. The write toggle (spec 42 R195): every row but those that read Status, write Scroll or Address, reset the PPU or run
such an access in a CPU clock leaves `w` as it is.
-/
namespace Sys2Proof.Machine

/-! ## One system step -/

/-- `t` has the toggle of `s`, and the same batches are still to come. -/
structure State.SameToggle (s t : State) : Prop where
  w : t.ppu.w = s.ppu.w
  cpuBatches : t.env.cpuBatches = s.env.cpuBatches

theorem State.SameToggle.trans {s t u : State} (h : s.SameToggle t) (h' : t.SameToggle u) : s.SameToggle u :=
  ⟨h'.w.trans h.w, h'.cpuBatches.trans h.cpuBatches⟩

theorem dotNmi_w (scanline : Int) (c : Nat) (p : Ppu) : (Ppu.dotNmi scanline c p).w = p.w := by
  unfold Ppu.dotNmi Ppu.when Ppu.raiseNmi
  split
  · split <;> rfl
  · rfl

theorem clock_sameToggle (s : State) : s.SameToggle (endState (clock s)) :=
  have h := clock_sameOutside s
  ⟨h.w.trans (dotNmi_w _ _ _), congrArg Env.cpuBatches h.env⟩

theorem clocks_sameToggle (n : Nat) (s : State) : s.SameToggle (endState (clocks n s)) := by
  induction n generalizing s with
  | zero => exact ⟨rfl, rfl⟩
  | succ n ih =>
    have h := clock_sameToggle s
    rw [clocks_succ]
    cases hc : clock s with
    | error t => rw [hc] at h; exact h
    | ok t => rw [hc] at h; exact State.SameToggle.trans h (ih t)

theorem deliverNmi_sameToggle (s : State) : s.SameToggle (deliverNmi s) := by
  unfold deliverNmi
  split <;> exact ⟨rfl, rfl⟩

/-- A CPU clock keeps the toggle when no transaction of its batch touches it (42 R195, 44 R274). -/
theorem cpuClock_w {s : State} (h : ∀ txn ∈ nextBatch s, ¬ txn.touchesToggle) :
    (endState (cpuClock s)).ppu.w = s.ppu.w :=
  (runBatch_control (nextBatch s) (callCpu .clock (dropBatch s))).2 h

theorem systemStep_w {s : State} (h : s.running = true → ∀ txn ∈ nextBatch s, ¬ txn.touchesToggle) :
    (endState (systemStep s)).ppu.w = s.ppu.w := by
  by_cases hr : s.running = true
  · have hclocks := clocks_sameToggle 3 s
    rw [systemStep_running hr]
    cases hc : clocks 3 s with
    | error t => rw [hc] at hclocks; exact hclocks.w
    | ok t =>
      rw [hc] at hclocks
      have hdelivered := State.SameToggle.trans hclocks (deliverNmi_sameToggle t)
      have hbatch : nextBatch (deliverNmi t) = nextBatch s := congrArg (·.headD []) hdelivered.cpuBatches
      exact (cpuClock_w (hbatch ▸ h hr)).trans hdelivered.w
  · rw [systemStep, if_neg hr]; rfl

/-! ## Every instruction -/

/-- The rows that can return `w` to false in `s` (42 R195). -/
inductive Instr.CanClearToggle (s : State) : Instr → Prop
  | cpuRdReg2 (a : Addr) : Instr.CanClearToggle s (.cpuRdReg2 a)
  | cpuWrReg5 (a : Addr) (d : Byte) : Instr.CanClearToggle s (.cpuWrReg5 a d)
  | cpuWrReg6 (a : Addr) (d : Byte) : Instr.CanClearToggle s (.cpuWrReg6 a d)
  | reset : Instr.CanClearToggle s .reset
  | powerOn : Instr.CanClearToggle s .powerOn
  | loadCart : Instr.CanClearToggle s .loadCart
  | sysStep (running : s.running = true) (batch : ∃ txn ∈ nextBatch s, txn.touchesToggle) :
      Instr.CanClearToggle s .sysStep

theorem cpuRead_w {a : Addr} (h : 0x2000 ≤ a.toNat → a.toNat ≤ 0x3FFF → a.toNat % 8 ≠ 2) (s : State) :
    (endState (cpuTransaction (.read a) s)).ppu.w = s.ppu.w :=
  (cpuTransaction_control (.read a) s).2 fun ⟨hlo, hhi, hr⟩ => h hlo hhi hr

theorem cpuWrite_w {a : Addr} (h : 0x2000 ≤ a.toNat → a.toNat ≤ 0x3FFF → a.toNat % 8 ≠ 5 ∧ a.toNat % 8 ≠ 6) (d : Byte)
    (s : State) : (endState (cpuTransaction (.write a d) s)).ppu.w = s.ppu.w :=
  (cpuTransaction_control (.write a d) s).2 fun ⟨hlo, hhi, hr⟩ => hr.elim (h hlo hhi).1 (h hlo hhi).2

theorem replyWith_ppuRead_w (a : Addr) (s : State) : (endState (replyWith (ppuRead a s))).ppu.w = s.ppu.w := by
  rcases ppuRead_sameOutside a s with ⟨b, t, h, ht⟩ | ⟨t, h, ht⟩ <;> rw [h] <;> exact ht.w

theorem ppuWrite_w (a : Addr) (d : Byte) (s : State) : (ppuWrite a d s).ppu.w = s.ppu.w :=
  ppuWrite_eq a d s ▸ (ppuStore_quiet s a d).2

/-- The register a register row selects. -/
theorem register_of_wf {a v : Addr} (hv : v.toNat / 8 * 8 = 0x2000) (h : addrMatches 0xE007 v a = true) :
    a.toNat % 8 = v.toNat % 8 := ((addrMatches_register a hv).1 h).2

/-- An instruction that is none of these rows keeps the toggle. -/
theorem exec_w {i : Instr} (s : State) (hwf : i.wf = true) :
    ∃ t, exec i s = .next t ∧ (Instr.CanClearToggle s i ∨ t.ppu.w = s.ppu.w) := by
  cases i with
  | cpuRdWram a =>
    have ha := (addrMatches_lowBlock a).1 hwf
    exact ⟨_, rfl, .inr (cpuRead_w (by omega) s)⟩
  | cpuRdReg2 a => exact ⟨_, rfl, .inl (.cpuRdReg2 a)⟩
  | cpuRdReg0 a | cpuRdReg1 a | cpuRdReg3 a | cpuRdReg4 a | cpuRdReg5 a | cpuRdReg6 a | cpuRdReg7 a =>
    have hr := register_of_wf (by rfl) hwf
    exact ⟨_, rfl, .inr (cpuRead_w (fun _ _ => hr ▸ by decide) s)⟩
  | cpuRdOpen a =>
    have ha := (addrMatches_open a).1 hwf
    exact ⟨_, rfl, .inr (cpuRead_w (by omega) s)⟩
  | cpuRdPrg a =>
    have ha := (addrMatches_prg a).1 hwf
    exact ⟨_, rfl, .inr (cpuRead_w (by omega) s)⟩
  | cpuWrWram a d =>
    have ha := (addrMatches_lowBlock a).1 hwf
    exact ⟨_, rfl, .inr (cpuWrite_w (by omega) d s)⟩
  | cpuWrReg5 a d => exact ⟨_, rfl, .inl (.cpuWrReg5 a d)⟩
  | cpuWrReg6 a d => exact ⟨_, rfl, .inl (.cpuWrReg6 a d)⟩
  | cpuWrReg0 a d | cpuWrReg1 a d | cpuWrReg2 a d | cpuWrReg3 a d | cpuWrReg4 a d | cpuWrReg7 a d =>
    have hr := register_of_wf (by rfl) hwf
    exact ⟨_, rfl, .inr (cpuWrite_w (fun _ _ => hr ▸ by decide) d s)⟩
  | cpuWrOpen a d =>
    have ha := (addrMatches_open a).1 hwf
    exact ⟨_, rfl, .inr (cpuWrite_w (by omega) d s)⟩
  | cpuWrPrg a d =>
    have ha := (addrMatches_prg a).1 hwf
    exact ⟨_, rfl, .inr (cpuWrite_w (by omega) d s)⟩
  | ppuRdChr a | ppuRdNt a | ppuRdPal a => exact ⟨_, rfl, .inr (replyWith_ppuRead_w a s)⟩
  | ppuWrChr a d | ppuWrNt a d | ppuWrPal a d => exact ⟨_, rfl, .inr (ppuWrite_w a d s)⟩
  | ppuClock => exact ⟨_, rfl, .inr (clock_sameToggle s).w⟩
  | sysStep =>
    by_cases h : s.running = true ∧ ∃ txn ∈ nextBatch s, txn.touchesToggle
    · exact ⟨_, rfl, .inl (.sysStep h.1 h.2)⟩
    · exact ⟨_, rfl, .inr (systemStep_w fun hr txn hmem htouch => h ⟨hr, txn, hmem, htouch⟩)⟩
  | reset => exact ⟨_, rfl, .inl .reset⟩
  | powerOn => exact ⟨_, rfl, .inl .powerOn⟩
  | loadCart => exact ⟨_, rfl, .inl .loadCart⟩
  | setRun run => exact ⟨_, rfl, .inr rfl⟩
  | reservedOpAB op d a | reservedOpCF op d a => exact ⟨_, rfl, .inr rfl⟩

/-- Settles O23: a toggle that changed is no kept one, so the instruction is one of the rows that can clear it. -/
theorem toggleClearedOnlyBy : Obligations.ToggleClearedOnlyBy := by
  unfold Obligations.ToggleClearedOnlyBy
  intro i s t hwf ht hset hclear
  obtain ⟨u, hu, hw⟩ := exec_w s hwf
  cases hu.symm.trans ht
  have hkept : t.ppu.w ≠ s.ppu.w := by simp [hset, hclear]
  cases hw.resolve_right hkept with
  | cpuRdReg2 a => exact .inl ⟨a, rfl⟩
  | cpuWrReg5 a d => exact .inr (.inl ⟨a, d, rfl⟩)
  | cpuWrReg6 a d => exact .inr (.inr (.inl ⟨a, d, rfl⟩))
  | reset => exact .inr (.inr (.inr (.inl rfl)))
  | powerOn => exact .inr (.inr (.inr (.inr (.inl rfl))))
  | loadCart => exact .inr (.inr (.inr (.inr (.inr (.inl rfl)))))
  | sysStep hr hbatch => exact .inr (.inr (.inr (.inr (.inr (.inr ⟨rfl, hr, hbatch⟩)))))

end Sys2Proof.Machine
end

section
/-!
SUPPORT. One PPU clock by the dot it is made at (spec 43 R220-R263): the PPU when composition is reached, written out for
each kind of dot, and what composition and the counter then change.
-/
namespace Sys2Proof.Machine

/-! ## The end of a dot -/

/-- `Advance()` changes the counter and the frame marks (43 R257). -/
theorem advance_eq (p : Ppu) :
    p.advance = { p with
      scanline := p.advance.scanline, cycle := p.advance.cycle, oddFrame := p.advance.oddFrame
      frameComplete := p.advance.frameComplete } := by
  unfold Ppu.advance
  split
  · split <;> rfl
  · rfl

/-- Composition changes the hit flag and the frame buffer (43 R254, R256). -/
theorem composePixel_eq (p : Ppu) :
    p.composePixel = { p with
      status := if p.zeroHitNow then setBit p.status 6 true else p.status
      fb := if p.visibleDot then Memory.put p.fb p.dotKey p.colour else p.fb } := by
  unfold Ppu.composePixel
  simp only
  split <;> split <;> rfl

/-- Composition and the counter after the dot's other events (43 R220). -/
theorem dotPpu_eq (s : State) :
    s.dotPpu = { s.beforePixel with
      scanline := s.dotPpu.scanline, cycle := s.dotPpu.cycle, oddFrame := s.dotPpu.oddFrame
      frameComplete := s.dotPpu.frameComplete
      status := if s.beforePixel.zeroHitNow then setBit s.beforePixel.status 6 true else s.beforePixel.status
      fb := if s.beforePixel.visibleDot then Memory.put s.beforePixel.fb s.beforePixel.dotKey s.beforePixel.colour
        else s.beforePixel.fb } := by
  have hadvance := advance_eq s.beforePixel.composePixel
  have hpixel := composePixel_eq s.beforePixel
  unfold State.dotPpu
  generalize s.beforePixel.composePixel = q at hadvance hpixel ⊢
  generalize q.advance = r at hadvance ⊢
  subst hpixel
  exact hadvance

section
variable (s : State)

@[simp] theorem dotPpu_ctrl : s.dotPpu.ctrl = s.beforePixel.ctrl := by rw [dotPpu_eq]
@[simp] theorem dotPpu_mask : s.dotPpu.mask = s.beforePixel.mask := by rw [dotPpu_eq]
@[simp] theorem dotPpu_t : s.dotPpu.t = s.beforePixel.t := by rw [dotPpu_eq]
@[simp] theorem dotPpu_fineX : s.dotPpu.fineX = s.beforePixel.fineX := by rw [dotPpu_eq]
@[simp] theorem dotPpu_w : s.dotPpu.w = s.beforePixel.w := by rw [dotPpu_eq]
@[simp] theorem dotPpu_oamAddr : s.dotPpu.oamAddr = s.beforePixel.oamAddr := by rw [dotPpu_eq]
@[simp] theorem dotPpu_oam : s.dotPpu.oam = s.beforePixel.oam := by rw [dotPpu_eq]
@[simp] theorem dotPpu_pal : s.dotPpu.pal = s.beforePixel.pal := by rw [dotPpu_eq]
@[simp] theorem dotPpu_dataBuf : s.dotPpu.dataBuf = s.beforePixel.dataBuf := by rw [dotPpu_eq]
@[simp] theorem dotPpu_nmiPending : s.dotPpu.nmiPending = s.beforePixel.nmiPending := by rw [dotPpu_eq]
@[simp] theorem dotPpu_v : s.dotPpu.v = s.beforePixel.v := by rw [dotPpu_eq]
@[simp] theorem dotPpu_bgNextTileId : s.dotPpu.bgNextTileId = s.beforePixel.bgNextTileId :=
  by rw [dotPpu_eq]
@[simp] theorem dotPpu_bgNextAttr : s.dotPpu.bgNextAttr = s.beforePixel.bgNextAttr := by rw [dotPpu_eq]
@[simp] theorem dotPpu_bgNextLo : s.dotPpu.bgNextLo = s.beforePixel.bgNextLo := by rw [dotPpu_eq]
@[simp] theorem dotPpu_bgNextHi : s.dotPpu.bgNextHi = s.beforePixel.bgNextHi := by rw [dotPpu_eq]
@[simp] theorem dotPpu_bgShPatLo : s.dotPpu.bgShPatLo = s.beforePixel.bgShPatLo := by rw [dotPpu_eq]
@[simp] theorem dotPpu_bgShPatHi : s.dotPpu.bgShPatHi = s.beforePixel.bgShPatHi := by rw [dotPpu_eq]
@[simp] theorem dotPpu_bgShAttrLo : s.dotPpu.bgShAttrLo = s.beforePixel.bgShAttrLo := by rw [dotPpu_eq]
@[simp] theorem dotPpu_bgShAttrHi : s.dotPpu.bgShAttrHi = s.beforePixel.bgShAttrHi := by rw [dotPpu_eq]
@[simp] theorem dotPpu_sprites : s.dotPpu.sprites = s.beforePixel.sprites := by rw [dotPpu_eq]
@[simp] theorem dotPpu_spriteCount : s.dotPpu.spriteCount = s.beforePixel.spriteCount :=
  by rw [dotPpu_eq]
@[simp] theorem dotPpu_zeroHitPossible : s.dotPpu.zeroHitPossible = s.beforePixel.zeroHitPossible :=
  by rw [dotPpu_eq]
theorem dotPpu_status :
    s.dotPpu.status = if s.beforePixel.zeroHitNow then setBit s.beforePixel.status 6 true else s.beforePixel.status :=
  by rw [dotPpu_eq]
theorem dotPpu_fb :
    s.dotPpu.fb = if s.beforePixel.visibleDot then
      Memory.put s.beforePixel.fb s.beforePixel.dotKey s.beforePixel.colour else s.beforePixel.fb :=
  by rw [dotPpu_eq]

/-- Composition and the counter change six fields (43 R220). -/
theorem dotPpu_frame :
    s.dotPpu = { s.beforePixel with
      scanline := s.dotPpu.scanline, cycle := s.dotPpu.cycle, oddFrame := s.dotPpu.oddFrame
      frameComplete := s.dotPpu.frameComplete, status := s.dotPpu.status, fb := s.dotPpu.fb } :=
  (dotPpu_eq s).trans (by rw [dotPpu_status, dotPpu_fb])

end

/-! ## A dot of the fetch window (43 R224) -/

theorem rendering_iff (p : Ppu) : p.rendering ↔ p.renderingEnabled = true := (Bool.or_eq_true _ _).symm.to_iff

theorem inFetchWindow_iff (c : Nat) : inFetchWindow c = true ↔ (2 ≤ c ∧ c ≤ 257) ∨ (321 ≤ c ∧ c ≤ 337) := by
  simp [inFetchWindow]

/-- Eight copies of an attribute bit (43 R228). -/
def attributeByte (b : Bool) : Byte := if b then 0xFF else 0x00

/-- A background shifter after the shift and the load of a window dot (43 R225, R228). -/
def Ppu.windowShifter (p : Ppu) (x : BitVec 16) (low : Byte) : BitVec 16 :=
  let shifted := if p.showBg then x <<< 1 else x
  if (p.cycle - 1) % 8 = 0 then loadLow shifted low else shifted

/-- `v` after a window dot (43 R227, R235, R236). -/
def Ppu.windowV (p : Ppu) : Loopy :=
  if p.renderingEnabled then
    if p.cycle = 256 then Machine.incScrollY (Machine.incScrollX p.v)
    else if p.cycle = 257 then Machine.transferX p.v p.t
    else if p.cycle % 8 = 0 then Machine.incScrollX p.v
    else p.v
  else p.v

/-- The slots after the sprite shift of a window dot (43 R226). -/
def Ppu.windowSprites (p : Ppu) : List Sprite :=
  if p.showSprites && decide (p.cycle ≤ 257) then onFirst Sprite.tick p.spriteCount p.sprites else p.sprites

/-- The PPU after the events of a window dot but the sprite evaluation (43 R225-R237). -/
def State.windowDot (s : State) : Ppu :=
  { s.ppu with
    frameComplete := false
    v := s.ppu.windowV
    bgNextTileId :=
      if (s.ppu.cycle - 1) % 8 = 0 then s.ppuPeek (nametableAddress s.ppu.v) else s.ppu.bgNextTileId
    bgNextAttr :=
      if (s.ppu.cycle - 1) % 8 = 2 then attributeBits s.ppu.v (s.ppuPeek (attributeAddress s.ppu.v))
      else s.ppu.bgNextAttr
    bgNextLo := if (s.ppu.cycle - 1) % 8 = 4 then s.ppuPeek s.ppu.bgPatternAddr else s.ppu.bgNextLo
    bgNextHi := if (s.ppu.cycle - 1) % 8 = 6 then s.ppuPeek (s.ppu.bgPatternAddr + 8) else s.ppu.bgNextHi
    bgShPatLo := s.ppu.windowShifter s.ppu.bgShPatLo s.ppu.bgNextLo
    bgShPatHi := s.ppu.windowShifter s.ppu.bgShPatHi s.ppu.bgNextHi
    bgShAttrLo := s.ppu.windowShifter s.ppu.bgShAttrLo (attributeByte (s.ppu.bgNextAttr.getLsbD 0))
    bgShAttrHi := s.ppu.windowShifter s.ppu.bgShAttrHi (attributeByte (s.ppu.bgNextAttr.getLsbD 1))
    sprites := s.ppu.windowSprites }

theorem shifts_eq (p : Ppu) :
    p.shiftBg.shiftSprites p.cycle = { p with
      bgShPatLo := if p.showBg then p.bgShPatLo <<< 1 else p.bgShPatLo
      bgShPatHi := if p.showBg then p.bgShPatHi <<< 1 else p.bgShPatHi
      bgShAttrLo := if p.showBg then p.bgShAttrLo <<< 1 else p.bgShAttrLo
      bgShAttrHi := if p.showBg then p.bgShAttrHi <<< 1 else p.bgShAttrHi
      sprites := p.windowSprites } := by
  have hsprites : ∀ q : Ppu, q.shiftSprites q.cycle = { q with sprites := q.windowSprites } := fun q => by
    unfold Ppu.shiftSprites Ppu.windowSprites
    split <;> rfl
  have hbg : p.shiftBg = { p with
      bgShPatLo := if p.showBg then p.bgShPatLo <<< 1 else p.bgShPatLo
      bgShPatHi := if p.showBg then p.bgShPatHi <<< 1 else p.bgShPatHi
      bgShAttrLo := if p.showBg then p.bgShAttrLo <<< 1 else p.bgShAttrLo
      bgShAttrHi := if p.showBg then p.bgShAttrHi <<< 1 else p.bgShAttrHi } := by
    unfold Ppu.shiftBg
    split <;> rfl
  rw [hbg]
  exact hsprites _

/-- A load replaces the low byte (43 R228). -/
theorem loadLow_toNat (x : BitVec 16) (low : Byte) : (loadLow x low).toNat = x.toNat / 256 * 256 + low.toNat := by
  have hhigh : (x &&& 0xFF00).toNat = (x.toNat / 256) <<< 8 :=
    (and_highMask_toNat x 8 rfl).trans (Nat.shiftLeft_eq _ _).symm
  rw [loadLow, BitVec.toNat_or, hhigh, BitVec.toNat_setWidth_of_le (by decide),
    ← Nat.shiftLeft_add_eq_or_of_lt low.isLt, Nat.shiftLeft_eq]

/-- A load of the same byte twice is one load (43 R228). -/
theorem loadLow_loadLow (x : BitVec 16) (low : Byte) : loadLow (loadLow x low) low = loadLow x low := by
  have hlow := low.isLt
  apply BitVec.eq_of_toNat_eq
  simp only [loadLow_toNat]
  omega

/-- The fetch step of a window dot, field by field (43 R227). -/
theorem fetchPpu_eq (s : State) (c : Nat) (p : Ppu) :
    s.fetchPpu c p = { p with
      v := if (c - 1) % 8 = 7 then p.incScrollX.v else p.v
      bgNextTileId := if (c - 1) % 8 = 0 then s.ppuPeek (nametableAddress p.v) else p.bgNextTileId
      bgNextAttr := if (c - 1) % 8 = 2 then attributeBits p.v (s.ppuPeek (attributeAddress p.v)) else p.bgNextAttr
      bgNextLo := if (c - 1) % 8 = 4 then s.ppuPeek p.bgPatternAddr else p.bgNextLo
      bgNextHi := if (c - 1) % 8 = 6 then s.ppuPeek (p.bgPatternAddr + 8) else p.bgNextHi
      bgShPatLo := if (c - 1) % 8 = 0 then loadLow p.bgShPatLo p.bgNextLo else p.bgShPatLo
      bgShPatHi := if (c - 1) % 8 = 0 then loadLow p.bgShPatHi p.bgNextHi else p.bgShPatHi
      bgShAttrLo := if (c - 1) % 8 = 0 then loadLow p.bgShAttrLo (attributeByte (p.bgNextAttr.getLsbD 0)) else p.bgShAttrLo
      bgShAttrHi := if (c - 1) % 8 = 0 then loadLow p.bgShAttrHi (attributeByte (p.bgNextAttr.getLsbD 1))
        else p.bgShAttrHi } := by
  have hx : p.incScrollX = { p with v := p.incScrollX.v } := by unfold Ppu.incScrollX; split <;> rfl
  unfold State.fetchPpu
  generalize (c - 1) % 8 = k
  match k with
  | 0 => rfl
  | 1 => rfl
  | 2 => rfl
  | 3 => rfl
  | 4 => rfl
  | 5 => rfl
  | 6 => rfl
  | 7 => exact hx
  | n + 8 => rfl

/-! The events of cycles 256 and 257 (43 R235, R236, R246). -/

theorem lineEndEvents_256 (l : Int) (p : Ppu) : p.lineEndEvents l 256 = p.incScrollY := rfl

theorem lineEndEvents_257 (l : Int) (p : Ppu) :
    p.lineEndEvents l 257 = p.loadBgShifters.transferX.when (decide (0 ≤ l)) (Ppu.evaluateSprites l) := rfl

theorem lineEndEvents_other (l : Int) {c : Nat} (h256 : c ≠ 256) (h257 : c ≠ 257) (p : Ppu) :
    p.lineEndEvents l c = p := by
  simp [Ppu.lineEndEvents, Ppu.when, h256, h257]

theorem incScrollX_eq (p : Ppu) :
    p.incScrollX = { p with v := if p.renderingEnabled then Machine.incScrollX p.v else p.v } := by
  unfold Ppu.incScrollX; split <;> rfl

theorem incScrollY_eq (p : Ppu) :
    p.incScrollY = { p with v := if p.renderingEnabled then Machine.incScrollY p.v else p.v } := by
  unfold Ppu.incScrollY; split <;> rfl

theorem transferX_eq (p : Ppu) :
    p.transferX = { p with v := if p.renderingEnabled then Machine.transferX p.v p.t else p.v } := by
  unfold Ppu.transferX; split <;> rfl

theorem transferY_eq (p : Ppu) :
    p.transferY = { p with v := if p.renderingEnabled then Machine.transferY p.v p.t else p.v } := by
  unfold Ppu.transferY; split <;> rfl

theorem vblankStart_eq (p : Ppu) :
    p.vblankStart = { p with status := setBit p.status 7 true, nmiPending := p.nmiPending || p.nmiEnable } := by
  unfold Ppu.vblankStart Ppu.raiseNmi
  rw [show (p.setVblank true).nmiEnable = p.nmiEnable from rfl]
  cases p.nmiEnable
  · exact congrArg (fun n => ({ p with status := setBit p.status 7 true, nmiPending := n } : Ppu)) (Bool.or_false _).symm
  · exact congrArg (fun n => ({ p with status := setBit p.status 7 true, nmiPending := n } : Ppu)) (Bool.or_true _).symm

theorem loadBgShifters_loadBgShifters (p : Ppu) : p.loadBgShifters.loadBgShifters = p.loadBgShifters := by
  simp [Ppu.loadBgShifters, loadLow_loadLow]

/-- The PPU after the shifts and the fetch step of the dot. -/
def State.fetchedDot (s : State) : Ppu :=
  s.fetchPpu s.ppu.cycle (s.ppu.clearFrameComplete.shiftBg.shiftSprites s.ppu.clearFrameComplete.cycle)

/-- Only `v` can still change after the fetch step (43 R235, R236). -/
theorem fetchedDot_withV (s : State) : { s.fetchedDot with v := s.ppu.windowV } = s.windowDot := by
  rw [State.fetchedDot, shifts_eq, fetchPpu_eq]
  rfl

theorem fetchedDot_v (s : State) :
    s.fetchedDot.v = if (s.ppu.cycle - 1) % 8 = 7 ∧ s.ppu.renderingEnabled = true then Machine.incScrollX s.ppu.v
      else s.ppu.v := by
  rw [State.fetchedDot, shifts_eq, fetchPpu_eq, incScrollX_eq, ite_and]
  rfl

theorem fetchedDot_renderingEnabled (s : State) : s.fetchedDot.renderingEnabled = s.ppu.renderingEnabled := by
  rw [State.fetchedDot, shifts_eq, fetchPpu_eq]
  rfl

theorem fetchedDot_t (s : State) : s.fetchedDot.t = s.ppu.t := by
  rw [State.fetchedDot, shifts_eq, fetchPpu_eq]
  rfl

/-- At step 0 the shifters are loaded already (43 R228). -/
theorem fetchedDot_loadBgShifters {s : State} (h : (s.ppu.cycle - 1) % 8 = 0) :
    s.fetchedDot.loadBgShifters = s.fetchedDot := by
  have hstep : ∀ p, s.fetchPpu s.ppu.cycle p =
      { p.loadBgShifters with bgNextTileId := s.ppuPeek (nametableAddress p.v) } := fun p => by
    rw [State.fetchPpu, h]
    rfl
  have hload : ∀ (p : Ppu) (b : Byte),
      Ppu.loadBgShifters { p with bgNextTileId := b } = { p.loadBgShifters with bgNextTileId := b } := fun _ _ => rfl
  rw [State.fetchedDot, hstep, hload, loadBgShifters_loadBgShifters]

/-- The events of a window dot: those of `windowDot`, then the sprite evaluation where the line is visible (43 R224,
R246). -/
theorem windowEvents_windowDot (s : State) (l : Int)
    (h : (2 ≤ s.ppu.cycle ∧ s.ppu.cycle ≤ 257) ∨ (321 ≤ s.ppu.cycle ∧ s.ppu.cycle ≤ 337)) :
    (s.windowPpu s.ppu.cycle s.ppu.clearFrameComplete).lineEndEvents l s.ppu.cycle =
      s.windowDot.when (s.ppu.cycle == 257 && decide (0 ≤ l)) (Ppu.evaluateSprites l) := by
  rw [State.windowPpu, if_pos ((inFetchWindow_iff _).2 h)]
  change s.fetchedDot.lineEndEvents l s.ppu.cycle = _
  by_cases h256 : s.ppu.cycle = 256
  · have hv : (if s.fetchedDot.renderingEnabled then Machine.incScrollY s.fetchedDot.v else s.fetchedDot.v) =
        s.ppu.windowV := by
      rw [fetchedDot_renderingEnabled, fetchedDot_v, Ppu.windowV, h256]
      cases s.ppu.renderingEnabled <;> rfl
    rw [h256, lineEndEvents_256, incScrollY_eq, hv, fetchedDot_withV]
    rfl
  by_cases h257 : s.ppu.cycle = 257
  · have hv : (if s.fetchedDot.renderingEnabled then Machine.transferX s.fetchedDot.v s.fetchedDot.t
        else s.fetchedDot.v) = s.ppu.windowV := by
      rw [fetchedDot_renderingEnabled, fetchedDot_v, fetchedDot_t, Ppu.windowV, h257]
      cases s.ppu.renderingEnabled <;> rfl
    rw [h257, lineEndEvents_257, fetchedDot_loadBgShifters (by rw [h257]), transferX_eq, hv, fetchedDot_withV]
    rfl
  have hv : s.fetchedDot.v = s.ppu.windowV := by
    have hstep : (s.ppu.cycle - 1) % 8 = 7 ↔ s.ppu.cycle % 8 = 0 := by omega
    simp only [fetchedDot_v, Ppu.windowV, h256, h257, hstep, if_false, ite_and]
    split <;> split <;> rfl
  rw [lineEndEvents_other l h256 h257, ← fetchedDot_withV, ← hv, beq_eq_false_iff_ne.2 h257]
  rfl

/-! ## The PPU when composition is reached -/

/-- The sprite fetch changes the slots only (43 R249). -/
theorem spritesPpu_eq (s : State) (l : Int) (i n : Nat) (p : Ppu) :
    s.spritesPpu l i n p = { p with sprites := (s.spritesPpu l i n p).sprites } := by
  induction n generalizing i p with
  | zero => rfl
  | succ n ih => exact ih (i + 1) (s.spritePpu l i p)

/-- A dot of the sprite fetch (43 R249). -/
abbrev Ppu.spriteFetchDot (p : Ppu) : Prop := (0 ≤ p.scanline ∧ p.scanline ≤ 239) ∧ p.cycle = 340

/-- A dot of the vertical transfer (43 R238). -/
abbrev Ppu.transferDot (p : Ppu) : Prop := p.scanline = -1 ∧ 280 ≤ p.cycle ∧ p.cycle ≤ 304

/-- The slots after the sprite fetch (43 R249). -/
def State.fetchedSprites (s : State) : List Sprite :=
  (s.spritesPpu s.ppu.scanline 0 s.ppu.spriteCount s.ppu.clearFrameComplete).sprites

section
variable {s : State}

theorem beforePixel_line (hl : -1 ≤ s.ppu.scanline ∧ s.ppu.scanline ≤ 239) :
    s.beforePixel = s.renderPpu s.ppu.scanline s.ppu.cycle s.ppu.clearFrameComplete := by
  have h241 : decide (s.ppu.scanline = 241) = false := decide_eq_false (by omega)
  simp only [State.beforePixel, if_pos hl, h241]
  rfl

theorem beforePixel_blank (hl : ¬ (-1 ≤ s.ppu.scanline ∧ s.ppu.scanline ≤ 239)) :
    s.beforePixel =
      s.ppu.clearFrameComplete.when (decide (s.ppu.scanline = 241) && s.ppu.cycle == 1) Ppu.vblankStart := by
  simp only [State.beforePixel, if_neg hl]

/-- On a rendering line outside the window: the clear, the sprite fetch or the vertical transfer (43 R260). -/
theorem beforePixel_outside (hl : -1 ≤ s.ppu.scanline ∧ s.ppu.scanline ≤ 239) (hw : ¬ s.ppu.inWindow) {p : Ppu}
    (hp : s.ppu.clearFrameComplete.when (decide (s.ppu.scanline = -1) && s.ppu.cycle == 1) Ppu.preRenderClear = p) :
    s.beforePixel =
      (if s.ppu.cycle = 340 ∧ 0 ≤ s.ppu.scanline then s.spritesPpu s.ppu.scanline 0 p.spriteCount p else p).when
        (decide (s.ppu.scanline = -1) && (decide (280 ≤ s.ppu.cycle) && decide (s.ppu.cycle ≤ 304))) Ppu.transferY := by
  have hw' : ¬ inFetchWindow s.ppu.cycle = true := fun h => hw ⟨hl, (inFetchWindow_iff _).1 h⟩
  have hcycle : ¬ ((2 ≤ s.ppu.cycle ∧ s.ppu.cycle ≤ 257) ∨ (321 ≤ s.ppu.cycle ∧ s.ppu.cycle ≤ 337)) :=
    fun h => hw ⟨hl, h⟩
  rw [beforePixel_line hl, State.renderPpu, hp, State.windowPpu, if_neg hw', lineEndEvents_other _ (by omega) (by omega)]

theorem beforePixel_idle (h : ¬ s.ppu.triggered) : s.beforePixel = s.ppu.clearFrameComplete := by
  by_cases hl : -1 ≤ s.ppu.scanline ∧ s.ppu.scanline ≤ 239
  · have hclear : (decide (s.ppu.scanline = -1) && s.ppu.cycle == 1) = false := by
      rw [Bool.eq_false_iff, ne_eq, Bool.and_eq_true, decide_eq_true_eq, beq_iff_eq]; omega
    have htransfer :
        (decide (s.ppu.scanline = -1) && (decide (280 ≤ s.ppu.cycle) && decide (s.ppu.cycle ≤ 304))) = false := by
      rw [Bool.eq_false_iff]; simp only [ne_eq, Bool.and_eq_true, decide_eq_true_eq]; omega
    rw [beforePixel_outside hl (fun hw => h (.inl hw)) (by rw [hclear]), htransfer, if_neg (by omega)]
    rfl
  · have hstart : (decide (s.ppu.scanline = 241) && s.ppu.cycle == 1) = false := by
      rw [Bool.eq_false_iff, ne_eq, Bool.and_eq_true, decide_eq_true_eq, beq_iff_eq]; omega
    rw [beforePixel_blank hl, hstart]
    rfl

theorem beforePixel_preRender (h : s.ppu.preRenderDot) :
    s.beforePixel = s.ppu.clearFrameComplete.preRenderClear := by
  obtain ⟨hl, hc⟩ := h
  rw [beforePixel_outside (by omega) (by omega) (by rw [hl, hc]), hl, hc]
  rfl

theorem beforePixel_vblank (h : s.ppu.vblankDot) :
    s.beforePixel = { s.ppu.clearFrameComplete with
      status := setBit s.ppu.status 7 true, nmiPending := s.ppu.nmiPending || s.ppu.nmiEnable } := by
  obtain ⟨hl, hc⟩ := h
  rw [beforePixel_blank (by omega), hl, hc]
  exact vblankStart_eq _

theorem beforePixel_spriteFetch (h : s.ppu.spriteFetchDot) :
    s.beforePixel = { s.ppu.clearFrameComplete with sprites := s.fetchedSprites } := by
  obtain ⟨hl, hc⟩ := h
  have hpre : (decide (s.ppu.scanline = -1) : Bool) = false := decide_eq_false (by omega)
  rw [beforePixel_outside (by omega) (by omega) (by rw [hpre]), hpre, if_pos ⟨hc, hl.1⟩]
  exact spritesPpu_eq s s.ppu.scanline 0 s.ppu.spriteCount s.ppu.clearFrameComplete

theorem beforePixel_transfer (h : s.ppu.transferDot) :
    s.beforePixel = { s.ppu.clearFrameComplete with
      v := if s.ppu.renderingEnabled then Machine.transferY s.ppu.v s.ppu.t else s.ppu.v } := by
  obtain ⟨hl, hlo, hhi⟩ := h
  rw [beforePixel_outside (p := s.ppu.clearFrameComplete) (by omega) (by omega)
    (by rw [beq_eq_false_iff_ne.2 (by omega), Bool.and_false]; rfl), if_neg (by omega), hl, decide_eq_true hlo,
    decide_eq_true hhi]
  exact transferY_eq _

theorem beforePixel_inWindow (h : s.ppu.inWindow) :
    s.beforePixel =
      s.windowDot.when (s.ppu.cycle == 257 && decide (0 ≤ s.ppu.scanline)) (Ppu.evaluateSprites s.ppu.scanline) := by
  obtain ⟨hl, hc⟩ := h
  rw [beforePixel_line hl, State.renderPpu, show (s.ppu.cycle == 1) = false from beq_eq_false_iff_ne.2 (by omega),
    Bool.and_false, show s.ppu.clearFrameComplete.when false Ppu.preRenderClear = s.ppu.clearFrameComplete from rfl,
    windowEvents_windowDot s _ hc, if_neg (by omega), Ppu.when, if_neg]
  simp only [Bool.and_eq_true, decide_eq_true_eq]; omega

theorem beforePixel_window (h : s.ppu.inWindow) (he : ¬ s.ppu.evaluationDot) : s.beforePixel = s.windowDot := by
  rw [beforePixel_inWindow h, Ppu.when, if_neg]
  simp only [Bool.and_eq_true, decide_eq_true_eq, beq_iff_eq]; omega

theorem beforePixel_evaluation (he : s.ppu.evaluationDot) :
    s.beforePixel = s.windowDot.evaluateSprites s.ppu.scanline := by
  obtain ⟨hl, hc⟩ := he
  rw [beforePixel_inWindow (by omega), hc, decide_eq_true hl.1]
  rfl

end

/-- The kinds of dot, with the PPU each leaves before composition (43 R260). -/
inductive DotKind (s : State) : Ppu → Prop
  | idle (h : ¬ s.ppu.triggered) : DotKind s s.ppu.clearFrameComplete
  | preRender (h : s.ppu.preRenderDot) : DotKind s s.ppu.clearFrameComplete.preRenderClear
  | vblank (h : s.ppu.vblankDot) :
      DotKind s { s.ppu.clearFrameComplete with
        status := setBit s.ppu.status 7 true, nmiPending := s.ppu.nmiPending || s.ppu.nmiEnable }
  | window (h : s.ppu.inWindow) (he : ¬ s.ppu.evaluationDot) : DotKind s s.windowDot
  | evaluation (h : s.ppu.evaluationDot) : DotKind s (s.windowDot.evaluateSprites s.ppu.scanline)
  | spriteFetch (h : s.ppu.spriteFetchDot) :
      DotKind s { s.ppu.clearFrameComplete with sprites := s.fetchedSprites }
  | transfer (h : s.ppu.transferDot) :
      DotKind s { s.ppu.clearFrameComplete with
        v := if s.ppu.renderingEnabled then Machine.transferY s.ppu.v s.ppu.t else s.ppu.v }

/-- Every dot is of one of these kinds. -/
theorem dotKind (s : State) : DotKind s s.beforePixel := by
  by_cases ht : s.ppu.triggered
  · rcases ht with hw | hp | hy | hf | hv
    · by_cases he : s.ppu.evaluationDot
      · exact beforePixel_evaluation he ▸ .evaluation he
      · exact beforePixel_window hw he ▸ .window hw he
    · exact beforePixel_preRender hp ▸ .preRender hp
    · exact beforePixel_transfer hy ▸ .transfer hy
    · exact beforePixel_spriteFetch hf ▸ .spriteFetch hf
    · exact beforePixel_vblank hv ▸ .vblank hv
  · exact beforePixel_idle ht ▸ .idle ht

/-! ## What no dot changes before composition -/

namespace DotKind
variable {s : State} {q : Ppu} (h : DotKind s q)
include h

theorem scanline : q.scanline = s.ppu.scanline := by cases h <;> rfl
theorem cycle : q.cycle = s.ppu.cycle := by cases h <;> rfl
theorem oddFrame : q.oddFrame = s.ppu.oddFrame := by cases h <;> rfl
theorem frameComplete : q.frameComplete = false := by cases h <;> rfl
theorem mask : q.mask = s.ppu.mask := by cases h <;> rfl
theorem fb : q.fb = s.ppu.fb := by cases h <;> rfl
theorem stale : q.stale = s.ppu.stale := by
  cases h with
  | preRender =>
    exact ((stale_setBit _ 5 false (by decide)).trans (stale_setBit _ 6 false (by decide))).trans
      (stale_setBit _ 7 false (by decide))
  | vblank => exact stale_setBit _ 7 true (by decide)
  | evaluation => exact stale_setBit _ 5 _ (by decide)
  | idle | window | spriteFetch | transfer => rfl

end DotKind

/-! ## The counter (43 R257-R259) -/

section
variable {s : State}

/-- What `Advance()` works on is the counter as it stood, with frameComplete cleared (43 R222). -/
theorem composePixel_timer (s : State) :
    s.beforePixel.composePixel.scanline = s.ppu.scanline ∧ s.beforePixel.composePixel.cycle = s.ppu.cycle ∧
      s.beforePixel.composePixel.oddFrame = s.ppu.oddFrame ∧ s.beforePixel.composePixel.frameComplete = false ∧
      s.beforePixel.composePixel.renderingEnabled = s.ppu.renderingEnabled := by
  have h := dotKind s
  rw [composePixel_eq]
  refine ⟨h.scanline, h.cycle, h.oddFrame, h.frameComplete, ?_⟩
  simp only [Ppu.renderingEnabled, Ppu.showBg, Ppu.showSprites, h.mask]

theorem dotPpu_withinLine (hc : s.ppu.cycle ≠ 340) :
    s.dotPpu.scanline = s.ppu.scanline ∧ s.dotPpu.cycle = s.ppu.cycle + 1 ∧ s.dotPpu.oddFrame = s.ppu.oddFrame ∧
      s.dotPpu.frameComplete = false := by
  obtain ⟨hl, hcycle, hodd, hfc, -⟩ := composePixel_timer s
  rw [State.dotPpu, Ppu.advance, hcycle, if_neg (by omega)]
  exact ⟨hl, rfl, hodd, hfc⟩

theorem dotPpu_lineEnd (hc : s.ppu.cycle = 340) (hs : s.ppu.scanline ≠ 260) :
    s.dotPpu.scanline = s.ppu.scanline + 1 ∧ s.dotPpu.cycle = 0 ∧ s.dotPpu.oddFrame = s.ppu.oddFrame ∧
      s.dotPpu.frameComplete = false := by
  obtain ⟨hl, hcycle, hodd, hfc, -⟩ := composePixel_timer s
  rw [State.dotPpu, Ppu.advance, hcycle, hl, if_pos (by omega), if_neg (by omega)]
  exact ⟨rfl, rfl, hodd, hfc⟩

theorem dotPpu_frameEnd (hc : s.ppu.cycle = 340) (hs : s.ppu.scanline = 260) :
    s.dotPpu.scanline = -1 ∧ s.dotPpu.cycle = (if s.ppu.oddFrame = false ∧ s.ppu.rendering then 1 else 0) ∧
      s.dotPpu.oddFrame = (!s.ppu.oddFrame) ∧ s.dotPpu.frameComplete = true := by
  obtain ⟨hl, hcycle, hodd, -, hr⟩ := composePixel_timer s
  rw [State.dotPpu, Ppu.advance, hcycle, hl, if_pos (by omega), if_pos (by omega)]
  refine ⟨rfl, ?_, congrArg (!·) hodd, rfl⟩
  simp only [Ppu.wrapFrame, hodd, hr, rendering_iff, Bool.and_eq_true, Bool.not_eq_true']

end

/-! ## PPU_CLOCK -/

/-- A clock with CHR in bounds completes and is `dotPpu` on the PPU (43 R260). -/
theorem exec_ppuClock {s : State} (h : Cart.chrInBounds s.cart) :
    ∃ x y, exec .ppuClock s = .next (s.withPpuSide x y s.dotPpu) := by
  obtain ⟨x, y, hclock⟩ := clock_eq s h
  exact ⟨x, y, congrArg finish hclock⟩

/-- A dot without a fetch completes whatever the cartridge holds, and touches no claim flag (43 R227, R249). -/
theorem clock_noFetch {s : State} (hw : ¬ s.ppu.inWindow) (hf : ¬ s.ppu.spriteFetchDot) :
    clock s = .ok { s with ppu := s.dotPpu } := by
  rw [clock_eq_bind, lineEvents]
  by_cases hl : -1 ≤ s.ppu.scanline ∧ s.ppu.scanline ≤ 239
  · have hw' : ¬ inFetchWindow s.ppu.cycle = true := fun h => hw ⟨hl, (inFetchWindow_iff _).1 h⟩
    rw [if_pos hl, renderEvents_eq_bind, windowEvents, if_neg hw']
    simp only [Except.bind, spriteEvents, State.dotPpu, State.beforePixel, if_pos hl, State.renderPpu, State.windowPpu,
      if_neg hw']
    rw [if_neg (by omega), if_neg (by omega)]
    rfl
  · rw [if_neg hl, State.dotPpu, beforePixel_blank hl]
    rfl

theorem exec_ppuClock_noFetch {s : State} (hw : ¬ s.ppu.inWindow) (hf : ¬ s.ppu.spriteFetchDot) :
    exec .ppuClock s = .next { s with ppu := s.dotPpu } := congrArg finish (clock_noFetch hw hf)

/-- Settles O40: inside a line, at its end, and at the end of the frame the counter advances in its three ways. -/
theorem clockAdvances : Obligations.ClockAdvances := by
  unfold Obligations.ClockAdvances
  intro s h
  obtain ⟨x, y, hexec⟩ := exec_ppuClock h
  exact ⟨_, hexec, dotPpu_withinLine, dotPpu_lineEnd, dotPpu_frameEnd⟩

end Sys2Proof.Machine
end

section
/-!
SUPPORT. What a PPU clock changes and what it keeps (spec 43 R220-R223, R254-R262), and the NMI request under every
instruction (43 R255, 44 R275).
-/
namespace Sys2Proof.Machine

/-! ## Status -/

/-- Setting the hit flag leaves the other bits (43 R254). -/
theorem setBit_six_and (x : Byte) : setBit x 6 true &&& 0xBF = x &&& 0xBF := by
  change (x ||| 0x40) &&& 0xBF = x &&& 0xBF
  rw [BitVec.and_or_distrib_right]
  exact BitVec.or_zero

/-- The three flags cleared, in the order of 43 R223. -/
theorem clearFlags_eq (x : Byte) : setBit (setBit (setBit x 7 false) 6 false) 5 false = x &&& 0x1F := by
  change ((x &&& 0x7F) &&& 0xBF) &&& 0xDF = x &&& 0x1F
  rw [BitVec.and_assoc, BitVec.and_assoc]
  rfl

namespace DotKind
variable {s : State} {q : Ppu} (h : DotKind s q)
include h

theorem vblankBit (hp : ¬ s.ppu.preRenderDot) (hv : ¬ s.ppu.vblankDot) :
    q.status.getLsbD 7 = s.ppu.status.getLsbD 7 := by
  cases h with
  | preRender h => exact absurd h hp
  | vblank h => exact absurd h hv
  | evaluation => exact getLsbD_setBit _ 5 7 _ (by decide)
  | idle | window | spriteFetch | transfer => rfl

theorem hitBit (hp : ¬ s.ppu.preRenderDot) : q.status.getLsbD 6 = s.ppu.status.getLsbD 6 := by
  cases h with
  | preRender h => exact absurd h hp
  | vblank => exact getLsbD_setBit _ 7 6 _ (by decide)
  | evaluation => exact getLsbD_setBit _ 5 6 _ (by decide)
  | idle | window | spriteFetch | transfer => rfl

theorem overflowBit (hp : ¬ s.ppu.preRenderDot) (he : ¬ s.ppu.evaluationDot) :
    q.status.getLsbD 5 = s.ppu.status.getLsbD 5 := by
  cases h with
  | preRender h => exact absurd h hp
  | vblank => exact getLsbD_setBit _ 7 5 _ (by decide)
  | evaluation h => exact absurd h he
  | idle | window | spriteFetch | transfer => rfl

theorem nmiPending (hv : ¬ s.ppu.vblankDot) : q.nmiPending = s.ppu.nmiPending := by
  cases h with
  | vblank h => exact absurd h hv
  | idle | preRender | window | evaluation | spriteFetch | transfer => rfl

theorem evaluated (he : ¬ s.ppu.evaluationDot) :
    q.spriteCount = s.ppu.spriteCount ∧ q.zeroHitPossible = s.ppu.zeroHitPossible := by
  cases h with
  | evaluation h => exact absurd h he
  | idle | preRender | vblank | window | spriteFetch | transfer => exact ⟨rfl, rfl⟩

/-- The registers the CPU writes and the stores it fills (43 R220, 20 R77). -/
theorem registers :
    q.ctrl = s.ppu.ctrl ∧ q.mask = s.ppu.mask ∧ q.t = s.ppu.t ∧ q.fineX = s.ppu.fineX ∧ q.w = s.ppu.w ∧
      q.oamAddr = s.ppu.oamAddr ∧ q.oam = s.ppu.oam ∧ q.pal = s.ppu.pal ∧ q.dataBuf = s.ppu.dataBuf := by
  cases h <;> exact ⟨rfl, rfl, rfl, rfl, rfl, rfl, rfl, rfl, rfl⟩

end DotKind

/-! ## Composition on and off the screen -/

theorem visibleDot_iff (p : Ppu) : p.visibleDot = true ↔ p.onScreen := by
  simp only [Ppu.visibleDot, Bool.and_eq_true, decide_eq_true_eq, and_assoc]

theorem zeroHitNow_offScreen {p : Ppu} (h : ¬ p.onScreen) : p.zeroHitNow = false := by
  rw [Ppu.zeroHitNow, Bool.eq_false_iff.2 (mt (visibleDot_iff p).1 h), Bool.and_false]

section
variable (s : State)

theorem beforePixel_onScreen : s.beforePixel.onScreen ↔ s.ppu.onScreen := by
  rw [Ppu.onScreen, (dotKind s).scanline, (dotKind s).cycle]

/-- Composition can only set bit 6 of Status (43 R254). -/
theorem dotPpu_statusBit {j : Nat} (hj : j < 8) (h6 : j ≠ 6) :
    s.dotPpu.status.getLsbD j = s.beforePixel.status.getLsbD j := by
  rw [dotPpu_status]
  split
  · rw [getLsbD_setBit _ _ _ _ hj, if_neg h6]
  · rfl

theorem dotPpu_hitBit :
    s.dotPpu.status.getLsbD 6 = (s.beforePixel.status.getLsbD 6 || s.beforePixel.zeroHitNow) := by
  rw [dotPpu_status]
  cases s.beforePixel.zeroHitNow
  · exact (Bool.or_false _).symm
  · exact (getLsbD_setBit _ 6 6 true (by decide)).trans (Bool.or_true _).symm

theorem dotPpu_stale : s.dotPpu.stale = s.ppu.stale := by
  rw [← (dotKind s).stale, Ppu.stale, dotPpu_status]
  split
  · exact stale_setBit _ 6 true (by decide)
  · rfl

variable {s}

theorem dotPpu_status_offScreen (h : ¬ s.ppu.onScreen) : s.dotPpu.status = s.beforePixel.status := by
  rw [dotPpu_status, zeroHitNow_offScreen (mt (beforePixel_onScreen s).1 h)]
  rfl

theorem dotPpu_fb_offScreen (h : ¬ s.ppu.onScreen) : s.dotPpu.fb = s.ppu.fb := by
  rw [dotPpu_fb, if_neg (fun hv => h ((beforePixel_onScreen s).1 ((visibleDot_iff _).1 hv))), (dotKind s).fb]

end

/-- Settles O41: each kind of dot keeps what the statement names, and composition adds the hit flag and the pixel. -/
theorem clockFrame : Obligations.ClockFrame := by
  unfold Obligations.ClockFrame
  intro s h
  obtain ⟨x, y, hexec⟩ := exec_ppuClock h
  have hkind := dotKind s
  obtain ⟨hctrl, hmask, ht, hfineX, hw, haddr, hoam, hpal, hbuf⟩ := hkind.registers
  refine ⟨_, hexec, rfl, ?_⟩
  simp only [State.withPpuSide_ppu, dotPpu_ctrl, dotPpu_mask, dotPpu_t, dotPpu_fineX, dotPpu_w, dotPpu_oamAddr, dotPpu_oam,
    dotPpu_pal, dotPpu_dataBuf, dotPpu_stale, dotPpu_nmiPending, dotPpu_spriteCount, dotPpu_zeroHitPossible,
    dotPpu_statusBit s (j := 7) (by decide) (by decide), dotPpu_statusBit s (j := 5) (by decide) (by decide), dotPpu_hitBit]
  refine ⟨hctrl, hmask, ht, hfineX, hw, haddr, hoam, hpal, hbuf, trivial, dotPpu_fb_offScreen, hkind.nmiPending,
    hkind.vblankBit, fun hp hs => ?_, fun hp hset => ?_, hkind.overflowBit, hkind.evaluated⟩
  · rw [zeroHitNow_offScreen (mt (beforePixel_onScreen s).1 hs), hkind.hitBit hp, Bool.or_false]
  · rw [hkind.hitBit hp, hset, Bool.true_or]

/-- Settles O42: composition and the counter are all such a dot does. -/
theorem untriggeredDot : Obligations.UntriggeredDot := by
  unfold Obligations.UntriggeredDot
  intro s h
  have hq := beforePixel_idle h
  have hexec := exec_ppuClock_noFetch (fun hw => h (.inl hw)) (fun hf => h (.inr (.inr (.inr (.inl hf)))))
  refine ⟨_, hexec, ?_, ?_, fun hs => ?_⟩
  · have hframe := dotPpu_frame s
    rw [hq] at hframe
    exact congrArg (fun p => { s with ppu := p }) hframe
  · rw [dotPpu_status, hq]
    split
    · exact setBit_six_and _
    · rfl
  · exact ⟨(dotPpu_status_offScreen hs).trans (by rw [hq]; rfl), dotPpu_fb_offScreen hs⟩

/-! ## The two dots of a flag event (43 R223, R255) -/

/-- A dot off the screen and inside its line: composition writes nothing, the counter moves on by one. -/
theorem dotPpu_offScreen {s : State} (hs : ¬ s.ppu.onScreen) (hc : s.ppu.cycle ≠ 340) :
    s.dotPpu = { s.beforePixel with cycle := s.ppu.cycle + 1 } := by
  obtain ⟨hline, hcycle, hodd, hfc⟩ := dotPpu_withinLine hc
  have hkind := dotKind s
  have hframe := dotPpu_frame s
  rw [hline, hcycle, hodd, hfc, dotPpu_status_offScreen hs, dotPpu_fb_offScreen hs, ← hkind.scanline, ← hkind.oddFrame,
    ← hkind.frameComplete, ← hkind.fb] at hframe
  exact hframe

/-- Settles O43: the dot is off the screen and fetches nothing, so the clear and the counter are all it does. -/
theorem preRenderClear : Obligations.PreRenderClear := by
  unfold Obligations.PreRenderClear
  intro s hl hc
  have hdot := dotPpu_offScreen (s := s) (by omega) (by omega)
  rw [beforePixel_preRender ⟨hl, hc⟩, hc] at hdot
  rw [exec_ppuClock_noFetch (by omega) (by omega), hdot, ← clearFlags_eq]
  rfl

/-- The clock of the vblank dot (43 R255). -/
theorem exec_ppuClock_vblank {s : State} (h : s.ppu.vblankDot) :
    exec .ppuClock s =
      .next { s with ppu := { s.ppu with
        status := s.ppu.status ||| 0x80, nmiPending := s.ppu.nmiPending || s.ppu.ctrl.getLsbD 7
        frameComplete := false, cycle := 2 } } := by
  have hdot := dotPpu_offScreen (s := s) (by omega) (by omega)
  rw [beforePixel_vblank h, h.2] at hdot
  rw [exec_ppuClock_noFetch (by omega) (by omega), hdot]
  rfl

/-! ## The NMI request under a system step (44 R273, R275) -/

theorem clocks_env (n : Nat) (s : State) : (endState (clocks n s)).env = s.env := by
  induction n generalizing s with
  | zero => rfl
  | succ n ih =>
    have h := (clock_sameOutside s).env
    rw [clocks_succ]
    cases hc : clock s with
    | error t => rw [hc] at h; exact h
    | ok t => rw [hc] at h; exact (ih t).trans h

/-- No clock withdraws a request (43 R255). -/
theorem clocks_nmiPending {s : State} (h : s.ppu.nmiPending = true) (n : Nat) :
    (endState (clocks n s)).ppu.nmiPending = true := by
  induction n generalizing s with
  | zero => exact h
  | succ n ih =>
    have hclock := clock_nmiPending s
    rw [h, Bool.true_or] at hclock
    rw [clocks_succ]
    cases hc : clock s with
    | error t => rw [hc] at hclock; exact hclock
    | ok t => rw [hc] at hclock; exact ih hclock

/-- Only a dot of a rendering line fetches, so only there a clock can fault (43 R224, R249). -/
theorem clock_error_line {s t : State} (h : clock s = .error t) : -1 ≤ s.ppu.scanline ∧ s.ppu.scanline ≤ 239 := by
  by_contra hl
  rw [clock_noFetch (by omega) (by omega)] at h
  cases h

/-- A request that stands with `n` clocks to come was raised on the vblank line, and the `n` clocks stay on that line. -/
def State.FreshNmi (n : Nat) (s : State) : Prop :=
  s.ppu.nmiPending = true → s.ppu.scanline = 241 ∧ 2 ≤ s.ppu.cycle ∧ s.ppu.cycle + n ≤ 340

theorem State.FreshNmi.clock {n : Nat} (hn : n ≤ 338) {s t : State} (h : s.FreshNmi (n + 1)) (hc : clock s = .ok t) :
    t.FreshNmi n := by
  intro ht
  have hclock := clock_nmiPending s
  rw [hc, endState, ht] at hclock
  have hpos : s.ppu.scanline = 241 ∧ 1 ≤ s.ppu.cycle ∧ s.ppu.cycle + n < 340 := by
    cases hs : s.ppu.nmiPending with
    | true =>
      obtain ⟨hl, hlo, hhi⟩ := h hs
      omega
    | false =>
      simp only [hs, Bool.false_or, Bool.true_eq, Bool.and_eq_true, decide_eq_true_eq, beq_iff_eq] at hclock
      omega
  rw [clock_noFetch (by omega) (by omega)] at hc
  cases hc
  obtain ⟨hline, hcycle, -⟩ := dotPpu_withinLine (s := s) (by omega)
  dsimp only
  omega

/-- A run of clocks that faults has raised no request: the line that raises one fetches nothing. -/
theorem clocks_error_nmiPending (n : Nat) (hn : n ≤ 338) {s t : State} (h : s.FreshNmi n) (he : clocks n s = .error t) :
    t.ppu.nmiPending = false := by
  induction n generalizing s with
  | zero => cases he
  | succ n ih =>
    rw [clocks_succ] at he
    cases hc : clock s with
    | ok u =>
      rw [hc] at he
      exact ih (by omega) (h.clock (by omega) hc) he
    | error u =>
      rw [hc] at he
      cases he
      have hline := clock_error_line hc
      have hclock := clock_nmiPending s
      have hnone : s.ppu.nmiPending = false := Bool.eq_false_iff.2 fun hs => by have := (h hs).1; omega
      have h241 : decide (s.ppu.scanline = 241) = false := decide_eq_false (by omega)
      rw [hc, hnone, h241] at hclock
      exact hclock

/-- Delivery takes the request, and logs the call where there is one (44 R275). -/
theorem deliverNmi_nmiPending (s : State) : (deliverNmi s).ppu.nmiPending = false := by
  unfold deliverNmi
  split
  · rfl
  · next h => exact Bool.eq_false_iff.2 h

/-- The ways an instruction changes the NMI request (43 R255, 44 R275, 10 R44). -/
inductive Instr.NmiChange (s t : State) : Instr → Prop
  | raise (hv : s.ppu.vblankDot) (hctrl : s.ppu.ctrl.getLsbD 7 = true) : Instr.NmiChange s t .ppuClock
  | deliver (hcleared : t.ppu.nmiPending = false) (hlog : t.env.cpuCalls = .clock :: .nmi :: s.env.cpuCalls) :
      Instr.NmiChange s t .sysStep
  | reset {i : Instr} (hi : i = .reset ∨ i = .powerOn ∨ i = .loadCart) (hcleared : t.ppu.nmiPending = false) :
      Instr.NmiChange s t i

theorem clock_nmiChange (s : State) :
    (endState (clock s)).ppu.nmiPending = s.ppu.nmiPending ∨ Instr.NmiChange s (endState (clock s)) .ppuClock := by
  rw [clock_nmiPending]
  by_cases h : (decide (s.ppu.scanline = 241) && s.ppu.cycle == 1 && s.ppu.nmiEnable) = true
  · simp only [Bool.and_eq_true, decide_eq_true_eq, beq_iff_eq] at h
    exact .inr (.raise h.1 h.2)
  · rw [Bool.eq_false_iff.2 h, Bool.or_false]
    exact .inl rfl

theorem systemStep_nmiChange (s : State) :
    (endState (systemStep s)).ppu.nmiPending = s.ppu.nmiPending ∨
      Instr.NmiChange s (endState (systemStep s)) .sysStep := by
  by_cases hr : s.running = true
  · rw [systemStep_running hr]
    have henv := clocks_env 3 s
    have hkeep := clocks_nmiPending (s := s) (n := 3)
    cases hc : clocks 3 s with
    | error t =>
      left
      cases hs : s.ppu.nmiPending with
      | true => rw [hc] at hkeep; exact hkeep hs
      | false => exact clocks_error_nmiPending 3 (by decide) (fun h => by rw [hs] at h; cases h) hc
    | ok t =>
      rw [hc] at henv hkeep
      have hbatch := (runBatch_control (nextBatch (deliverNmi t)) (callCpu .clock (dropBatch (deliverNmi t)))).1
      have hcleared := hbatch.nmiPending.trans (deliverNmi_nmiPending t)
      cases hs : s.ppu.nmiPending with
      | false => exact .inl hcleared
      | true =>
        refine .inr (.deliver hcleared (hbatch.cpuCalls.trans ?_))
        have ht : t.ppu.nmiPending = true := hkeep hs
        have hlog : (deliverNmi t).env.cpuCalls = .nmi :: t.env.cpuCalls := by rw [deliverNmi, if_pos ht]; rfl
        exact congrArg (CpuCall.clock :: ·) (hlog.trans (congrArg (fun e : Env => CpuCall.nmi :: e.cpuCalls) henv))
  · rw [systemStep, if_neg hr]
    exact .inl rfl

/-! ## The NMI request under every instruction -/

theorem cpuTransaction_nmiPending (txn : CpuTxn) (s : State) :
    (endState (cpuTransaction txn s)).ppu.nmiPending = s.ppu.nmiPending := (cpuTransaction_control txn s).1.nmiPending

theorem replyWith_ppuRead_nmiPending (a : Addr) (s : State) :
    (endState (replyWith (ppuRead a s))).ppu.nmiPending = s.ppu.nmiPending := by
  rcases ppuRead_sameOutside a s with ⟨b, t, h, ht⟩ | ⟨t, h, ht⟩ <;> rw [h] <;> exact ht.nmiPending

theorem ppuWrite_nmiPending (a : Addr) (d : Byte) (s : State) : (ppuWrite a d s).ppu.nmiPending = s.ppu.nmiPending :=
  ppuWrite_eq a d s ▸ (ppuStore_quiet s a d).1.nmiPending

theorem runCallbacks_nmiPending (cbs : List Callback) (s : State) :
    (runCallbacks cbs s).ppu.nmiPending = s.ppu.nmiPending ∨ (runCallbacks cbs s).ppu.nmiPending = false := by
  induction cbs generalizing s with
  | nil => exact .inl rfl
  | cons cb cbs ih =>
    cases cb
    exact .inr ((ih (resetBoth s)).elim (fun h => h.trans rfl) id)

theorem loadCartridge_nmiPending (image : Image) (s : State) :
    (endState (loadCartridge image s)).ppu.nmiPending = s.ppu.nmiPending ∨
      (endState (loadCartridge image s)).ppu.nmiPending = false := by
  unfold loadCartridge
  split
  · exact .inl rfl
  cases image with
  | unreadable => exact .inl rfl
  | bytes b =>
    simp only [loadBytes]
    split
    · exact .inl rfl
    split
    · exact .inl rfl
    split
    · exact .inl rfl
    split
    · exact .inl rfl
    · exact runCallbacks_nmiPending _ _

/-- Every instruction keeps the request or changes it in one of these ways. -/
theorem exec_nmiChange (i : Instr) (s : State) :
    ∃ t, exec i s = .next t ∧ (t.ppu.nmiPending = s.ppu.nmiPending ∨ Instr.NmiChange s t i) := by
  cases i with
  | cpuRdWram a | cpuRdReg0 a | cpuRdReg1 a | cpuRdReg2 a | cpuRdReg3 a | cpuRdReg4 a | cpuRdReg5 a | cpuRdReg6 a
  | cpuRdReg7 a | cpuRdOpen a | cpuRdPrg a => exact ⟨_, rfl, .inl (cpuTransaction_nmiPending (.read a) s)⟩
  | cpuWrWram a d | cpuWrReg0 a d | cpuWrReg1 a d | cpuWrReg2 a d | cpuWrReg3 a d | cpuWrReg4 a d | cpuWrReg5 a d
  | cpuWrReg6 a d | cpuWrReg7 a d | cpuWrOpen a d | cpuWrPrg a d =>
    exact ⟨_, rfl, .inl (cpuTransaction_nmiPending (.write a d) s)⟩
  | ppuRdChr a | ppuRdNt a | ppuRdPal a => exact ⟨_, rfl, .inl (replyWith_ppuRead_nmiPending a s)⟩
  | ppuWrChr a d | ppuWrNt a d | ppuWrPal a d => exact ⟨_, rfl, .inl (ppuWrite_nmiPending a d s)⟩
  | ppuClock => exact ⟨_, rfl, clock_nmiChange s⟩
  | sysStep => exact ⟨_, rfl, systemStep_nmiChange s⟩
  | reset => exact ⟨_, rfl, .inr (.reset (.inl rfl) rfl)⟩
  | powerOn =>
    refine ⟨_, exec_powerOn s, ?_⟩
    split
    · exact .inr (.reset (.inr (.inl rfl)) rfl)
    · exact .inl rfl
  | loadCart =>
    exact ⟨_, rfl, (loadCartridge_nmiPending s.env.operand s).imp id (.reset (.inr (.inr rfl)))⟩
  | setRun run => exact ⟨_, rfl, .inl rfl⟩
  | reservedOpAB op d a | reservedOpCF op d a => exact ⟨_, rfl, .inl rfl⟩

/-- Settles O44: a request that changed is no kept one, so the instruction changed it in one of the ways of `NmiChange`. -/
theorem vblankStart : Obligations.VblankStart := by
  unfold Obligations.VblankStart
  refine fun s => ⟨exec_ppuClock_vblank, fun i t ht hclear hset => ?_, fun i t ht hset hclear => ?_⟩
  all_goals
    obtain ⟨u, hu, hchange⟩ := exec_nmiChange i s
    cases hu.symm.trans ht
    have hnew : t.ppu.nmiPending ≠ s.ppu.nmiPending := by simp [hset, hclear]
  · cases hchange.resolve_left hnew with
    | raise hv hctrl => exact ⟨rfl, hv, hctrl⟩
    | deliver hcleared => simp [hset] at hcleared
    | reset hi hcleared => simp [hset] at hcleared
  · cases hchange.resolve_left hnew with
    | raise hv hctrl =>
      cases (exec_ppuClock_vblank hv).symm.trans ht
      simp [hset] at hclear
    | deliver _ hlog => exact .inr (.inr (.inr ⟨rfl, hlog⟩))
    | reset hi => exact hi.elim .inl fun h => h.elim (.inr ∘ .inl) (.inr ∘ .inr ∘ .inl)

end Sys2Proof.Machine
end

section
/-!
SUPPORT. The scroll counters and the background fetch addresses as numbers (spec 43 R228-R238, 30 R95-R97).
-/
namespace Sys2Proof.Machine

/-! ## The fields of a loopy address as numbers (10 R27) -/

section
variable (v : Loopy)

theorem Loopy.toNat_eq_fields :
    v.toNat = (Loopy.fineY v).toNat * 2 ^ 12 + (Loopy.nametableY v).toNat * 2 ^ 11 + (Loopy.nametableX v).toNat * 2 ^ 10 +
      (Loopy.coarseY v).toNat * 2 ^ 5 + (Loopy.coarseX v).toNat := by
  rw [← Loopy.ofFields_toNat, Loopy.ofFields_fields]

theorem Loopy.coarseX_toNat : (Loopy.coarseX v).toNat = v.toNat % 32 := BitVec.extractLsb'_toNat ..

theorem Loopy.coarseY_toNat : (Loopy.coarseY v).toNat = v.toNat / 32 % 32 := by
  rw [Loopy.coarseY, BitVec.extractLsb'_toNat, Nat.shiftRight_eq_div_pow]

theorem Loopy.nametableX_toNat : (Loopy.nametableX v).toNat = v.toNat / 1024 % 2 := Nat.toNat_testBit v.toNat 10

theorem Loopy.nametableY_toNat : (Loopy.nametableY v).toNat = v.toNat / 2048 % 2 := Nat.toNat_testBit v.toNat 11

theorem Loopy.fineY_toNat : (Loopy.fineY v).toNat = v.toNat / 4096 := by
  have hv := v.isLt
  rw [Loopy.fineY, BitVec.extractLsb'_toNat, Nat.shiftRight_eq_div_pow]
  omega

end

theorem getLsbD_iff_toNat {w : Nat} (x : BitVec w) (i : Nat) : x.getLsbD i = true ↔ x.toNat / 2 ^ i % 2 = 1 := by
  rw [BitVec.getLsbD, Nat.testBit_eq_decide_div_mod_eq, decide_eq_true_eq]

theorem not_toNat (b : Bool) : (!b).toNat = 1 - b.toNat := by cases b <;> rfl

theorem beq_ofNat_iff {w : Nat} (x : BitVec w) {n : Nat} (hn : n < 2 ^ w) :
    (x == BitVec.ofNat w n) = true ↔ x.toNat = n := by
  rw [beq_iff_eq, ← BitVec.toNat_inj, BitVec.toNat_ofNat, Nat.mod_eq_of_lt hn]

/-! ## The scroll counters (43 R234-R238) -/

theorem incScrollX_toNat (v : Loopy) :
    (incScrollX v).toNat =
      if v.toNat % 32 = 31 then
        (if v.toNat / 1024 % 2 = 0 then v.toNat - 31 + 1024 else v.toNat - 31 - 1024)
      else v.toNat + 1 := by
  have hx := Loopy.coarseX_toNat v
  have hnx := Loopy.nametableX_toNat v
  have hfields := Loopy.toNat_eq_fields v
  have hwrap : (Loopy.coarseX v == 31) = true ↔ v.toNat % 32 = 31 := by rw [← hx]; exact beq_ofNat_iff _ (by decide)
  simp only [incScrollX, hwrap]
  split
  · simp only [Loopy.withNametableX, Loopy.withCoarseX, Loopy.ofFields_toNat, Loopy.coarseX_ofFields,
      Loopy.coarseY_ofFields, Loopy.nametableY_ofFields, Loopy.fineY_ofFields, not_toNat]
    change _ + 0 = _
    split <;> omega
  · rw [Loopy.withCoarseX, Loopy.ofFields_toNat, BitVec.toNat_add]
    change _ + ((Loopy.coarseX v).toNat + 1) % 2 ^ 5 = _
    omega

theorem incScrollY_toNat (v : Loopy) :
    (incScrollY v).toNat =
      if v.toNat / 4096 < 7 then v.toNat + 4096
      else if v.toNat / 32 % 32 = 29 then
        (if v.toNat / 2048 % 2 = 0 then v.toNat % 4096 - 29 * 32 + 2048 else v.toNat % 4096 - 29 * 32 - 2048)
      else if v.toNat / 32 % 32 = 31 then v.toNat % 4096 - 31 * 32
      else v.toNat % 4096 + 32 := by
  have hv := v.isLt
  have hy := Loopy.coarseY_toNat v
  have hny := Loopy.nametableY_toNat v
  have hfy := Loopy.fineY_toNat v
  have hfields := Loopy.toNat_eq_fields v
  have h29 : (Loopy.coarseY v == 29) = true ↔ v.toNat / 32 % 32 = 29 := by rw [← hy]; exact beq_ofNat_iff _ (by decide)
  have h31 : (Loopy.coarseY v == 31) = true ↔ v.toNat / 32 % 32 = 31 := by rw [← hy]; exact beq_ofNat_iff _ (by decide)
  simp only [incScrollY, h29, h31, hfy]
  split
  · rw [Loopy.withFineY, Loopy.ofFields_toNat, BitVec.toNat_add]
    change ((Loopy.fineY v).toNat + 1) % 2 ^ 3 * _ + _ + _ + _ + _ = _
    omega
  split
  · simp only [Loopy.withNametableY, Loopy.withCoarseY, Loopy.withFineY, Loopy.ofFields_toNat, Loopy.coarseX_ofFields,
      Loopy.coarseY_ofFields, Loopy.nametableX_ofFields, Loopy.fineY_ofFields, not_toNat]
    change 0 * _ + _ + _ + 0 * _ + _ = _
    split <;> omega
  split
  · simp only [Loopy.withCoarseY, Loopy.withFineY, Loopy.ofFields_toNat, Loopy.coarseX_ofFields,
      Loopy.nametableX_ofFields, Loopy.nametableY_ofFields, Loopy.fineY_ofFields]
    change 0 * _ + _ + _ + 0 * _ + _ = _
    omega
  · simp only [Loopy.withCoarseY, Loopy.withFineY, Loopy.ofFields_toNat, Loopy.coarseX_ofFields,
      Loopy.nametableX_ofFields, Loopy.nametableY_ofFields, Loopy.fineY_ofFields, BitVec.toNat_add]
    change 0 * _ + _ + _ + ((Loopy.coarseY v).toNat + 1) % 2 ^ 5 * _ + _ = _
    omega

theorem transferX_masks (v t : Loopy) : transferX v t = (v &&& 0x7BE0) ||| (t &&& 0x041F) := by
  have hv : (0x7BE0 : Loopy) = Loopy.ofFields (.allOnes 3) true false (.allOnes 5) 0 := rfl
  have ht : (0x041F : Loopy) = Loopy.ofFields 0 false true 0 (.allOnes 5) := rfl
  rw [hv, ht, Loopy.and_ofFields, Loopy.and_ofFields, Loopy.ofFields_or]
  simp [-BitVec.reduceAllOnes, transferX, Loopy.withCoarseX, Loopy.withNametableX]

theorem transferY_masks (v t : Loopy) : transferY v t = (v &&& 0x041F) ||| (t &&& 0x7BE0) := by
  have hv : (0x041F : Loopy) = Loopy.ofFields 0 false true 0 (.allOnes 5) := rfl
  have ht : (0x7BE0 : Loopy) = Loopy.ofFields (.allOnes 3) true false (.allOnes 5) 0 := rfl
  rw [hv, ht, Loopy.and_ofFields, Loopy.and_ofFields, Loopy.ofFields_or]
  simp [-BitVec.reduceAllOnes, transferY, Loopy.withCoarseY, Loopy.withNametableY, Loopy.withFineY]

/-- Settles O49: the four updates, each by its own lemma. -/
theorem scrollArithmetic : Obligations.ScrollArithmetic := by
  unfold Obligations.ScrollArithmetic
  exact fun v t => ⟨incScrollX_toNat v, incScrollY_toNat v, transferX_masks v t, transferY_masks v t⟩

/-! ## The fetch addresses (30 R95-R97) -/

theorem nametableAddress_eq (v : Loopy) : nametableAddress v = BitVec.ofNat 16 (0x2000 + v.toNat % 0x1000) := by
  have hlow : (v.setWidth 16 &&& 0x0FFF).toNat = v.toNat % 2 ^ 12 := by
    rw [and_lowMask_toNat _ 12 rfl, BitVec.toNat_setWidth_of_le (by decide)]
  have hlt : v.toNat % 2 ^ 12 < 2 ^ 12 := Nat.mod_lt _ (by decide)
  apply BitVec.eq_of_toNat_eq
  rw [nametableAddress, BitVec.toNat_or, hlow, show (0x2000 : Addr).toNat = 2 <<< 12 from rfl,
    ← Nat.shiftLeft_add_eq_or_of_lt hlt, BitVec.toNat_ofNat]
  omega

/-- The attribute table's base for a nametable. -/
theorem attributeBase_toNat (ny nx : Bool) :
    ((0x23C0#16) ||| ((BitVec.ofBool ny).setWidth 16 <<< 11) ||| ((BitVec.ofBool nx).setWidth 16 <<< 10)).toNat =
      ((0x8F + ny.toNat * 0x20 + nx.toNat * 0x10) <<< 3) <<< 3 := by
  cases ny <;> cases nx <;> rfl

theorem attributeAddress_eq (v : Loopy) :
    attributeAddress v =
      BitVec.ofNat 16 (0x23C0 + v.toNat / 2048 % 2 * 0x800 + v.toNat / 1024 % 2 * 0x400 + v.toNat / 128 % 8 * 8 +
        v.toNat / 4 % 8) := by
  have hcol : ((Loopy.coarseX v).setWidth 16 >>> 2).toNat = v.toNat / 4 % 8 := by
    rw [BitVec.toNat_ushiftRight, BitVec.toNat_setWidth_of_le (by decide), Loopy.coarseX_toNat, Nat.shiftRight_eq_div_pow]
    omega
  have hrow : (((Loopy.coarseY v).setWidth 16 >>> 2) <<< 3 : Addr).toNat = (v.toNat / 128 % 8) <<< 3 := by
    rw [BitVec.toNat_shiftLeft, BitVec.toNat_ushiftRight, BitVec.toNat_setWidth_of_le (by decide), Loopy.coarseY_toNat,
      Nat.shiftRight_eq_div_pow, Nat.shiftLeft_eq, Nat.shiftLeft_eq]
    omega
  apply BitVec.eq_of_toNat_eq
  rw [attributeAddress, BitVec.toNat_or, BitVec.toNat_or, attributeBase_toNat, hcol, hrow, ← Nat.shiftLeft_or_distrib,
    ← Nat.shiftLeft_add_eq_or_of_lt (Nat.mod_lt _ (by decide)),
    ← Nat.shiftLeft_add_eq_or_of_lt (Nat.mod_lt _ (by decide)),
    Loopy.nametableX_toNat, Loopy.nametableY_toNat, BitVec.toNat_ofNat]
  simp only [Nat.shiftLeft_eq]
  omega

/-- The quadrant's two bits as a quotient (30 R96). -/
theorem attributeBits_eq (v : Loopy) (b : Byte) :
    attributeBits v b =
      BitVec.ofNat 2
        (b.toNat / ((if v.toNat / 64 % 2 = 1 then 16 else 1) * if v.toNat / 2 % 2 = 1 then 4 else 1) % 4) := by
  have hy : (Loopy.coarseY v).getLsbD 1 = true ↔ v.toNat / 64 % 2 = 1 := by
    rw [getLsbD_iff_toNat, Loopy.coarseY_toNat]
    omega
  have hx : (Loopy.coarseX v).getLsbD 1 = true ↔ v.toNat / 2 % 2 = 1 := by
    rw [getLsbD_iff_toNat, Loopy.coarseX_toNat]
    omega
  apply BitVec.eq_of_toNat_eq
  simp only [attributeBits, hx, hy]
  split <;> split <;>
    simp only [BitVec.extractLsb'_toNat, BitVec.toNat_ushiftRight, BitVec.toNat_ofNat, Nat.shiftRight_eq_div_pow] <;> omega

theorem tableBase_toNat (table : Bool) : (tableBase table).toNat = if table then 0x1000 else 0 := by
  cases table <;> rfl

/-- The row of the current background tile (43 R232). -/
theorem bgPatternAddr_eq (p : Ppu) :
    p.bgPatternAddr =
      BitVec.ofNat 16 ((if p.ctrl.getLsbD 4 then 0x1000 else 0) + p.bgNextTileId.toNat * 16 + p.v.toNat / 4096) := by
  have htile := p.bgNextTileId.isLt
  have hv := p.v.isLt
  apply BitVec.eq_of_toNat_eq
  rw [Ppu.bgPatternAddr, bgPatternAddress, BitVec.toNat_add, BitVec.toNat_add, tableBase_toNat, BitVec.toNat_shiftLeft,
    BitVec.toNat_setWidth_of_le (by decide), BitVec.toNat_setWidth_of_le (by decide), Loopy.fineY_toNat,
    Nat.shiftLeft_eq, BitVec.toNat_ofNat, Ppu.bgPatternTable]
  omega

/-! ## Shifts and loads as numbers (43 R225, R228) -/

theorem shiftLeft_one_eq {w : Nat} (x : BitVec w) : x <<< 1 = BitVec.ofNat w (2 * x.toNat) := by
  apply BitVec.eq_of_toNat_eq
  rw [BitVec.toNat_shiftLeft, BitVec.toNat_ofNat, Nat.shiftLeft_eq, Nat.pow_one, Nat.mul_comm]

theorem loadLow_eq (x : BitVec 16) (low : Byte) :
    loadLow x low = BitVec.ofNat 16 (x.toNat / 256 * 256 + low.toNat) := by
  rw [← loadLow_toNat, BitVec.ofNat_toNat, BitVec.setWidth_eq]

theorem attributeByte_toNat (b : Bool) : (attributeByte b).toNat = if b then 255 else 0 := by cases b <;> rfl

theorem windowShifter_eq (p : Ppu) (x : BitVec 16) (low : Byte) :
    p.windowShifter x low =
      if (p.cycle - 1) % 8 = 0 then
        BitVec.ofNat 16 ((if p.mask.getLsbD 3 then BitVec.ofNat 16 (2 * x.toNat) else x).toNat / 256 * 256 + low.toNat)
      else if p.mask.getLsbD 3 then BitVec.ofNat 16 (2 * x.toNat) else x := by
  simp only [Ppu.windowShifter, loadLow_eq, shiftLeft_one_eq, Ppu.showBg]

/-! ## The scroll update of a dot (43 R227, R235-R238) -/

/-- `v` after the dot. -/
def Ppu.scrolled (p : Ppu) : Loopy :=
  if p.rendering ∧ -1 ≤ p.scanline ∧ p.scanline ≤ 239 then
    if p.cycle = 256 then Machine.incScrollY (Machine.incScrollX p.v)
    else if p.cycle = 257 then Machine.transferX p.v p.t
    else if p.inWindow ∧ p.cycle % 8 = 0 then Machine.incScrollX p.v
    else if p.transferDot then Machine.transferY p.v p.t
    else p.v
  else p.v

section
variable {p : Ppu}

theorem scrolled_inWindow (hw : p.inWindow) : p.windowV = p.scrolled := by
  have ht : ¬ p.transferDot := by omega
  by_cases hr : p.rendering
  · have hl : p.rendering ∧ -1 ≤ p.scanline ∧ p.scanline ≤ 239 := ⟨hr, hw.1⟩
    rw [Ppu.windowV, Ppu.scrolled, if_pos ((rendering_iff p).1 hr), if_pos hl, if_neg ht]
    simp only [and_iff_right hw]
  · rw [Ppu.windowV, Ppu.scrolled, if_neg (mt (rendering_iff p).2 hr), if_neg (fun h => hr h.1)]

theorem scrolled_transfer (ht : p.transferDot) :
    p.scrolled = if p.renderingEnabled then transferY p.v p.t else p.v := by
  by_cases hr : p.rendering
  · have hl : p.rendering ∧ -1 ≤ p.scanline ∧ p.scanline ≤ 239 := ⟨hr, by omega⟩
    rw [Ppu.scrolled, if_pos hl, if_neg (by omega), if_neg (by omega), if_neg (by omega), if_pos ht,
      if_pos ((rendering_iff p).1 hr)]
  · rw [Ppu.scrolled, if_neg (fun h => hr h.1), if_neg (mt (rendering_iff p).2 hr)]

theorem scrolled_other (hw : ¬ p.inWindow) (ht : ¬ p.transferDot) : p.scrolled = p.v := by
  by_cases hl : p.rendering ∧ -1 ≤ p.scanline ∧ p.scanline ≤ 239
  · rw [Ppu.scrolled, if_pos hl, if_neg (by omega), if_neg (by omega), if_neg (fun h => hw h.1), if_neg ht]
  · rw [Ppu.scrolled, if_neg hl]

end

/-! ## The background pipeline over a clock -/

namespace DotKind
variable {s : State} {q : Ppu} (h : DotKind s q)
include h

theorem shifters_outside (hw : ¬ s.ppu.inWindow) :
    q.bgShPatLo = s.ppu.bgShPatLo ∧ q.bgShPatHi = s.ppu.bgShPatHi ∧ q.bgShAttrLo = s.ppu.bgShAttrLo ∧
      q.bgShAttrHi = s.ppu.bgShAttrHi := by
  cases h with
  | window h => exact absurd h hw
  | evaluation h => omega
  | idle | preRender | vblank | spriteFetch | transfer => exact ⟨rfl, rfl, rfl, rfl⟩

theorem shifters_inWindow (hw : s.ppu.inWindow) :
    q.bgShPatLo = s.windowDot.bgShPatLo ∧ q.bgShPatHi = s.windowDot.bgShPatHi ∧
      q.bgShAttrLo = s.windowDot.bgShAttrLo ∧ q.bgShAttrHi = s.windowDot.bgShAttrHi := by
  cases h with
  | window | evaluation => exact ⟨rfl, rfl, rfl, rfl⟩
  | idle h => exact absurd (.inl hw) h
  | preRender | vblank | spriteFetch | transfer => omega

/-- Which latch a dot loads, and from which address (43 R227). -/
theorem latches :
    q.bgNextTileId = (if s.ppu.inWindow ∧ (s.ppu.cycle - 1) % 8 = 0 then s.ppuPeek (nametableAddress s.ppu.v)
      else s.ppu.bgNextTileId) ∧
    q.bgNextAttr = (if s.ppu.inWindow ∧ (s.ppu.cycle - 1) % 8 = 2 then
      attributeBits s.ppu.v (s.ppuPeek (attributeAddress s.ppu.v)) else s.ppu.bgNextAttr) ∧
    q.bgNextLo = (if s.ppu.inWindow ∧ (s.ppu.cycle - 1) % 8 = 4 then s.ppuPeek s.ppu.bgPatternAddr
      else s.ppu.bgNextLo) ∧
    q.bgNextHi = (if s.ppu.inWindow ∧ (s.ppu.cycle - 1) % 8 = 6 then s.ppuPeek (s.ppu.bgPatternAddr + 8)
      else s.ppu.bgNextHi) := by
  by_cases hw : s.ppu.inWindow
  · simp only [and_iff_right hw]
    cases h with
    | window | evaluation => exact ⟨rfl, rfl, rfl, rfl⟩
    | idle h => exact absurd (.inl hw) h
    | preRender | vblank | spriteFetch | transfer => omega
  · simp only [hw, false_and, if_false]
    cases h with
    | window h => exact absurd h hw
    | evaluation h => omega
    | idle | preRender | vblank | spriteFetch | transfer => exact ⟨rfl, rfl, rfl, rfl⟩

/-- Which scroll update a dot makes (43 R235-R238). -/
theorem v_eq : q.v = s.ppu.scrolled := by
  cases h with
  | window hw => exact scrolled_inWindow hw
  | evaluation he => exact scrolled_inWindow (by omega)
  | transfer ht => exact (scrolled_transfer (p := s.ppu) ht).symm
  | idle hi => exact (scrolled_other (p := s.ppu) (fun hw => hi (.inl hw)) (fun ht => hi (.inr (.inr (.inl ht))))).symm
  | preRender hp => exact (scrolled_other (p := s.ppu) (by omega) (by omega)).symm
  | vblank hv => exact (scrolled_other (p := s.ppu) (by omega) (by omega)).symm
  | spriteFetch hf => exact (scrolled_other (p := s.ppu) (by omega) (by omega)).symm

end DotKind

/-- Settles O45: the shifters outside the window, and those of `windowDot` inside it, as numbers. -/
theorem backgroundShiftAndLoad : Obligations.BackgroundShiftAndLoad := by
  unfold Obligations.BackgroundShiftAndLoad
  intro s h
  obtain ⟨x, y, hexec⟩ := exec_ppuClock h
  refine ⟨_, hexec, fun hw => ?_, fun hw => ?_⟩
  all_goals simp only [State.withPpuSide_ppu, dotPpu_bgShPatLo, dotPpu_bgShPatHi, dotPpu_bgShAttrLo, dotPpu_bgShAttrHi]
  · exact (dotKind s).shifters_outside hw
  · obtain ⟨hlo, hhi, halo, hahi⟩ := (dotKind s).shifters_inWindow hw
    simp only [← attributeByte_toNat, hlo, hhi, halo, hahi, ← windowShifter_eq]
    exact ⟨rfl, rfl, rfl, rfl⟩

/-- Settles O48: composition keeps `v`, and every kind of dot leaves it as `scrolled`. -/
theorem scrollUpdates : Obligations.ScrollUpdates := by
  unfold Obligations.ScrollUpdates
  intro s h
  obtain ⟨x, y, hexec⟩ := exec_ppuClock h
  exact ⟨_, hexec, (dotPpu_v s).trans (dotKind s).v_eq⟩

/-! ## The claim flags of the fetch (40 R133, 43 R227) -/

/-- The address the fetch step of a window dot reads, if any (43 R227). -/
def Ppu.fetchAddress (p : Ppu) (c : Nat) : Option Addr :=
  match (c - 1) % 8 with
  | 0 => some (nametableAddress p.v)
  | 2 => some (attributeAddress p.v)
  | 4 => some p.bgPatternAddr
  | 6 => some (p.bgPatternAddr + 8)
  | _ => none

/-- The claim flags after an access to an address, or to none. -/
def State.claimsAfterFetch (s : State) : Option Addr → Claims
  | some a => s.claimsAfterPpu a
  | none => s.claimed

theorem fetchInto_claimed {s : State} (h : Cart.chrInBounds s.cart) (a : Addr) (f : Byte → Ppu → Ppu) :
    (endState (fetchInto a f s)).claimed = s.claimsAfterPpu a := by
  rw [fetchInto, ppuRead_eq a s h]
  rfl

theorem fetchStep_claimed {s : State} (h : Cart.chrInBounds s.cart) (c : Nat) :
    (endState (fetchStep c s)).claimed = s.claimsAfterFetch (s.ppu.fetchAddress c) := by
  unfold fetchStep Ppu.fetchAddress
  generalize (c - 1) % 8 = k
  match k with
  | 0 =>
    simp only [fetchNametable_eq]
    exact fetchInto_claimed (s := s.mapPpu Ppu.loadBgShifters) h _ _
  | 2 =>
    simp only [fetchAttribute_eq]
    exact fetchInto_claimed h _ _
  | 4 =>
    simp only [fetchPatternLow_eq]
    exact fetchInto_claimed h _ _
  | 6 =>
    simp only [fetchPatternHigh_eq]
    exact fetchInto_claimed h _ _
  | 1 => rfl
  | 3 => rfl
  | 5 => rfl
  | 7 => rfl
  | n + 8 => rfl

theorem claimsAfterFetch_mapPpu (s : State) (f : Ppu → Ppu) (a : Option Addr) :
    (s.mapPpu f).claimsAfterFetch a = s.claimsAfterFetch a := by
  cases a <;> rfl

/-- The shifts before the fetch step leave its address (43 R224). -/
theorem shifts_fetchAddress (p : Ppu) (c : Nat) : (p.shiftBg.shiftSprites p.cycle).fetchAddress c = p.fetchAddress c := by
  rw [shifts_eq]
  rfl

/-- A clock of a window dot makes the accesses of its fetch step alone. -/
theorem clock_claimed_inWindow {s : State} (h : Cart.chrInBounds s.cart) (hw : s.ppu.inWindow) :
    (endState (clock s)).claimed = s.claimsAfterFetch (s.ppu.fetchAddress s.ppu.cycle) := by
  obtain ⟨hl, hc⟩ := hw
  have hstep : (endState (windowEvents s.ppu.cycle (s.mapPpu Ppu.clearFrameComplete))).claimed =
      s.claimsAfterFetch (s.ppu.fetchAddress s.ppu.cycle) := by
    rw [windowEvents, if_pos ((inFetchWindow_iff _).2 hc), fetchStep_claimed (by exact h),
      claimsAfterFetch_mapPpu, claimsAfterFetch_mapPpu, claimsAfterFetch_mapPpu]
    exact congrArg s.claimsAfterFetch (shifts_fetchAddress s.ppu.clearFrameComplete _)
  have hclear : (decide (s.ppu.scanline = -1) && s.ppu.cycle == 1) = false := by
    rw [beq_eq_false_iff_ne.2 (by omega), Bool.and_false]
  rw [clock_eq_bind, lineEvents, if_pos hl, renderEvents_eq_bind, hclear]
  change (endState (((windowEvents s.ppu.cycle (s.mapPpu Ppu.clearFrameComplete)).bind _).bind _)).claimed = _
  cases hwe : windowEvents s.ppu.cycle (s.mapPpu Ppu.clearFrameComplete) with
  | error t => rw [hwe] at hstep; exact hstep
  | ok t =>
    rw [hwe] at hstep
    simp only [Except.bind, spriteEvents]
    rw [if_neg (by omega)]
    exact hstep

/-- The claim flags after any dot but those of cycle 340, by the fetch step (43 R227). -/
theorem clock_claimed {s : State} (h : Cart.chrInBounds s.cart) (hc : s.ppu.cycle ≠ 340) :
    (endState (clock s)).claimed =
      if s.ppu.inWindow ∧ (s.ppu.cycle - 1) % 8 = 0 then s.claimsAfterPpu (nametableAddress s.ppu.v)
      else if s.ppu.inWindow ∧ (s.ppu.cycle - 1) % 8 = 2 then s.claimsAfterPpu (attributeAddress s.ppu.v)
      else if s.ppu.inWindow ∧ (s.ppu.cycle - 1) % 8 = 4 then s.claimsAfterPpu s.ppu.bgPatternAddr
      else if s.ppu.inWindow ∧ (s.ppu.cycle - 1) % 8 = 6 then s.claimsAfterPpu (s.ppu.bgPatternAddr + 8)
      else s.claimed := by
  by_cases hw : s.ppu.inWindow
  · rw [clock_claimed_inWindow h hw, Ppu.fetchAddress]
    simp only [and_iff_right hw]
    generalize (s.ppu.cycle - 1) % 8 = k
    match k with
    | 0 | 1 | 2 | 3 | 4 | 5 | 6 | 7 => rfl
    | n + 8 => rfl
  · simp only [hw, false_and, if_false]
    rw [clock_noFetch hw (fun hf => hc hf.2)]
    rfl

theorem ofNat_add_eight (n : Nat) : BitVec.ofNat 16 n + 8 = BitVec.ofNat 16 (n + 8) := (BitVec.ofNat_add ..).symm

/-- Settles O47: the latches of each kind of dot and the claim flags of its fetch, with the addresses as numbers. -/
theorem backgroundFetches : Obligations.BackgroundFetches := by
  unfold Obligations.BackgroundFetches
  intro s h
  obtain ⟨x, y, hclock⟩ := clock_eq s h
  have hclaimed := clock_claimed h
  rw [hclock] at hclaimed
  obtain ⟨htile, hattr, hlo, hhi⟩ := (dotKind s).latches
  simp only [← ofNat_add_eight, ← nametableAddress_eq, ← attributeAddress_eq, ← bgPatternAddr_eq, ← attributeBits_eq]
  exact ⟨_, congrArg finish hclock, (dotPpu_bgNextTileId s).trans htile, (dotPpu_bgNextAttr s).trans hattr,
    (dotPpu_bgNextLo s).trans hlo, (dotPpu_bgNextHi s).trans hhi, hclaimed⟩

end Sys2Proof.Machine
end

section
/-!
SUPPORT. The pixel a clock composes (spec 43 R251-R256), and whole frames of clocks (43 R257-R261, 70 R313, R325).
-/
namespace Sys2Proof.Machine

/-! ## The pixel of a dot -/

theorem pixelAt_put (fb : Memory 6) (a k : Nat) (v : BitVec 6) :
    pixelAt (Memory.put fb a v) k = if k = a then v else pixelAt fb k := by
  split
  · next h => rw [h, pixelAt_put_same]
  · next h => exact pixelAt_put_other fb v h

/-- After the clock, with the counter put back, what composition looks at is as it was when the pixel was composed. -/
theorem dotPpu_atDot (s : State) :
    ({ s.dotPpu with scanline := s.ppu.scanline, cycle := s.ppu.cycle } : Ppu) =
      { s.beforePixel with
        oddFrame := s.dotPpu.oddFrame, frameComplete := s.dotPpu.frameComplete, status := s.dotPpu.status
        fb := s.dotPpu.fb } := by
  have hframe := congrArg (fun p : Ppu => { p with scanline := s.ppu.scanline, cycle := s.ppu.cycle }) (dotPpu_frame s)
  rw [← (dotKind s).scanline, ← (dotKind s).cycle] at hframe ⊢
  exact hframe

theorem dotPpu_atDot_colour (s : State) :
    ({ s.dotPpu with scanline := s.ppu.scanline, cycle := s.ppu.cycle } : Ppu).colour = s.beforePixel.colour := by
  rw [dotPpu_atDot]
  rfl

theorem dotPpu_atDot_zeroHitNow (s : State) :
    ({ s.dotPpu with scanline := s.ppu.scanline, cycle := s.ppu.cycle } : Ppu).zeroHitNow = s.beforePixel.zeroHitNow := by
  rw [dotPpu_atDot]
  rfl

theorem beforePixel_dotKey (s : State) : s.beforePixel.dotKey = 256 * s.ppu.scanline.toNat + (s.ppu.cycle - 1) := by
  rw [Ppu.dotKey, (dotKind s).scanline, (dotKind s).cycle]

/-- Off the screen the hit flag is kept, or cleared by the pre-render dot (43 R223, R254). -/
theorem dotPpu_hitBit_offScreen {s : State} (hs : ¬ s.ppu.onScreen) (hset : s.dotPpu.status.getLsbD 6 = true) :
    s.ppu.status.getLsbD 6 = true := by
  rw [dotPpu_status_offScreen hs] at hset
  by_cases hp : s.ppu.preRenderDot
  · rw [beforePixel_preRender hp] at hset
    change (setBit (setBit (setBit s.ppu.status 7 false) 6 false) 5 false).getLsbD 6 = true at hset
    rw [getLsbD_setBit _ 5 6 _ (by decide), getLsbD_setBit _ 6 6 _ (by decide)] at hset
    cases hset
  · exact ((dotKind s).hitBit hp).symm.trans hset

/-- Settles O54: with the counter put back the PPU composes the pixel it composed during the clock. -/
theorem pixelComposition : Obligations.PixelComposition := by
  unfold Obligations.PixelComposition
  intro s h
  obtain ⟨x, y, hexec⟩ := exec_ppuClock h
  refine ⟨_, hexec, fun hs => ⟨fun k => ?_, ?_⟩, fun hs => ⟨dotPpu_fb_offScreen hs, dotPpu_hitBit_offScreen hs⟩⟩
  · have hvisible := (visibleDot_iff _).2 ((beforePixel_onScreen s).2 hs)
    simp only [State.withPpuSide_ppu, dotPpu_atDot_colour]
    rw [dotPpu_fb, if_pos hvisible, pixelAt_put, beforePixel_dotKey, (dotKind s).fb]
  · have hp : ¬ s.ppu.preRenderDot := by omega
    simp only [State.withPpuSide_ppu, dotPpu_atDot_zeroHitNow]
    rw [dotPpu_hitBit, (dotKind s).hitBit hp]

/-! ## A frame of clocks -/

/-- `t` is reached from `s` within its frame, `k` dots after (-1, 0): the counter, the parity of the frame, what rendering
depends on, and vblank once dot (241, 1) is past. -/
structure State.AtDot (s : State) (k : Nat) (t : State) : Prop where
  scanline : t.ppu.scanline = (k / 341 : Nat) - 1
  cycle : t.ppu.cycle = k % 341
  oddFrame : t.ppu.oddFrame = s.ppu.oddFrame
  mask : t.ppu.mask = s.ppu.mask
  cart : t.cart = s.cart
  vblank : 242 * 341 + 1 < k → t.ppu.status.getLsbD 7 = true

theorem clocks_add (m n : Nat) (s : State) : clocks (m + n) s = (clocks m s).bind (clocks n) := by
  induction m generalizing s with
  | zero => rw [Nat.zero_add]; rfl
  | succ m ih =>
    rw [Nat.add_right_comm, clocks_succ, clocks_succ]
    cases clock s with
    | error t => rfl
    | ok t => exact ih t

section
variable {s : State} (h : Cart.chrInBounds s.cart)
include h

/-- One clock inside the frame: the next dot, no pulse. -/
theorem State.AtDot.clock {k : Nat} {t : State} (ht : s.AtDot k t) (hk : k < 341 * 262 - 1) :
    ∃ u, clock t = .ok u ∧ s.AtDot (k + 1) u ∧ u.ppu.frameComplete = false := by
  obtain ⟨x, y, hclock⟩ := clock_eq t (ht.cart ▸ h)
  have hline := ht.scanline
  have hcycle := ht.cycle
  have hmask : t.dotPpu.mask = s.ppu.mask := by rw [dotPpu_mask, (dotKind t).mask, ht.mask]
  have hvblank : 242 * 341 + 1 < k + 1 → t.dotPpu.status.getLsbD 7 = true := by
    intro hpast
    rw [dotPpu_statusBit t (by decide) (by decide)]
    by_cases hv : t.ppu.vblankDot
    · rw [beforePixel_vblank hv]
      exact getLsbD_setBit _ 7 7 true (by decide)
    · rw [(dotKind t).vblankBit (by omega) hv]
      exact ht.vblank (by omega)
  refine ⟨_, hclock, ?_⟩
  by_cases hc : t.ppu.cycle = 340
  · obtain ⟨hl', hc', ho', hf'⟩ := dotPpu_lineEnd hc (by omega)
    exact ⟨⟨by simp only [State.withPpuSide_ppu]; omega, by simp only [State.withPpuSide_ppu]; omega,
      ho'.trans ht.oddFrame, hmask, ht.cart, hvblank⟩, hf'⟩
  · obtain ⟨hl', hc', ho', hf'⟩ := dotPpu_withinLine hc
    exact ⟨⟨by simp only [State.withPpuSide_ppu]; omega, by simp only [State.withPpuSide_ppu]; omega,
      ho'.trans ht.oddFrame, hmask, ht.cart, hvblank⟩, hf'⟩

/-- A run of clocks inside the frame. -/
theorem State.AtDot.clocks {k : Nat} {t : State} (ht : s.AtDot k t) (n : Nat) (hn : k + n ≤ 341 * 262 - 1) :
    ∃ u, clocks n t = .ok u ∧ s.AtDot (k + n) u ∧ (0 < n → u.ppu.frameComplete = false) := by
  induction n generalizing k t with
  | zero => exact ⟨t, rfl, ht, fun hn => absurd hn (by decide)⟩
  | succ n ih =>
    obtain ⟨u, hclock, hu, hfc⟩ := ht.clock h (by omega)
    obtain ⟨v, hclocks, hv, hfc'⟩ := ih hu (by omega)
    refine ⟨v, ?_, ?_, fun _ => ?_⟩
    · rw [clocks_succ, hclock]
      exact hclocks
    · rw [← Nat.add_assoc, Nat.add_right_comm]
      exact hv
    · cases n with
      | zero =>
        cases hclocks
        exact hfc
      | succ n => exact hfc' (Nat.succ_pos n)

/-- The last clock of the frame: the wrap, the pulse and the odd-frame skip (43 R258, R259). -/
theorem State.AtDot.frameEnd {t : State} (ht : s.AtDot (341 * 262 - 1) t) :
    ∃ u, Machine.clock t = .ok u ∧ u.ppu.scanline = -1 ∧
      u.ppu.cycle = (if s.ppu.oddFrame = false ∧ s.ppu.rendering then 1 else 0) ∧ u.ppu.oddFrame = (!s.ppu.oddFrame) ∧
      u.ppu.frameComplete = true ∧ u.ppu.status.getLsbD 7 = true := by
  obtain ⟨x, y, hclock⟩ := clock_eq t (ht.cart ▸ h)
  have hline := ht.scanline
  have hcycle := ht.cycle
  obtain ⟨hl', hc', ho', hf'⟩ := dotPpu_frameEnd (s := t) (by omega) (by omega)
  have hr : t.ppu.rendering ↔ s.ppu.rendering := by simp only [Ppu.rendering, ht.mask]
  simp only [ht.oddFrame, hr] at hc'
  rw [ht.oddFrame] at ho'
  refine ⟨_, hclock, hl', hc', ho', hf', ?_⟩
  rw [State.withPpuSide_ppu, dotPpu_statusBit t (by decide) (by decide), (dotKind t).vblankBit (by omega) (by omega)]
  exact ht.vblank (by decide)

/-- The clocks from a dot of the frame to its end (43 R261). -/
theorem State.AtDot.frame {k : Nat} (hs : s.AtDot k s) {n : Nat} (hn : k + n = 341 * 262 - 1) :
    ∃ t, Machine.clocks (n + 1) s = .ok t ∧ t.ppu.scanline = -1 ∧
      t.ppu.cycle = (if s.ppu.oddFrame = false ∧ s.ppu.rendering then 1 else 0) ∧ t.ppu.oddFrame = (!s.ppu.oddFrame) ∧
      t.ppu.frameComplete = true ∧ t.ppu.status.getLsbD 7 = true := by
  obtain ⟨u, hclocks, hu, -⟩ := hs.clocks h n (by omega)
  obtain ⟨t, hclock, ht⟩ := State.AtDot.frameEnd h (hn ▸ hu)
  refine ⟨t, ?_, ht⟩
  rw [clocks_add, hclocks]
  change Machine.clocks 1 u = _
  rw [clocks_succ, hclock]
  rfl

end

/-- A state at a dot of the first line, before vblank can be set by the frame. -/
theorem State.AtDot.start {s : State} {k : Nat} (hl : s.ppu.scanline = -1) (hc : s.ppu.cycle = k) (hk : k < 341) :
    s.AtDot k s where
  scanline := by omega
  cycle := by omega
  oddFrame := rfl
  mask := rfl
  cart := rfl
  vblank := fun _ => by omega

/-- Settles O55: the counter passes every dot of the frame, (241, 1) among them, and pulses at its end. -/
theorem frameWithRenderingDisabled : Obligations.FrameWithRenderingDisabled := by
  unfold Obligations.FrameWithRenderingDisabled
  intro s h hl hc hr
  have hstart := State.AtDot.start hl hc (by decide)
  refine ⟨?_, fun n hpos hn => ?_⟩
  · obtain ⟨t, hclocks, hline, hcycle, hodd, hfc, hvblank⟩ := hstart.frame h (n := 341 * 262 - 1) (by decide)
    rw [if_neg fun hs => hr hs.2] at hcycle
    exact ⟨t, hclocks, hline, hcycle, hvblank, hodd, hfc⟩
  · obtain ⟨u, hclocks, -, hfc⟩ := hstart.clocks h n (by omega)
    exact ⟨u, hclocks, hfc hpos⟩

/-- Settles O56: the frame's length counts from the dot it starts at, and the wrap skips a dot where the new frame is odd. -/
theorem oddFrameSkip : Obligations.OddFrameSkip := by
  unfold Obligations.OddFrameSkip
  refine fun s h hl hr => ⟨fun hc hodd => ?_, fun hc hodd => ?_⟩
  · obtain ⟨t, hclocks, hline, hcycle, hodd', hfc, -⟩ :=
      (State.AtDot.start hl hc (by decide)).frame h (n := 341 * 262 - 1) (by decide)
    rw [if_pos ⟨hodd, hr⟩] at hcycle
    rw [hodd] at hodd'
    exact ⟨t, hclocks, hline, hcycle, hodd', hfc⟩
  · obtain ⟨t, hclocks, hline, hcycle, hodd', hfc, -⟩ :=
      (State.AtDot.start hl hc (by decide)).frame h (n := 341 * 262 - 2) (by decide)
    rw [if_neg fun hs => by simp [hodd] at hs] at hcycle
    rw [hodd] at hodd'
    exact ⟨t, hclocks, hline, hcycle, hodd', hfc⟩

end Sys2Proof.Machine
end

section
/-!
SUPPORT. The sprite slots over a clock (spec 43 R226, R240-R250): shifted and counted, filled by the evaluation, loaded by
the fetch, and the claim flags of that fetch.
-/
namespace Sys2Proof.Machine

/-! ## The slots one by one -/

theorem onFirst_getElem? (f : Sprite → Sprite) (n : Nat) (es : List Sprite) (i : Nat) :
    (onFirst f n es)[i]? = es[i]?.map fun e => if i < n then f e else e := by
  induction es generalizing n i with
  | nil => cases n <;> rfl
  | cons e es ih =>
    cases n with
    | zero => simp [onFirst]
    | succ n =>
      cases i with
      | zero => simp [onFirst]
      | succ i => simp [onFirst, ih]

/-- A slot that the evaluation leaves empty (43 R241). -/
def Sprite.emptied (e : Sprite) : Sprite := { e with y := 0xFF, tile := 0xFF, attr := 0xFF, x := 0xFF }

/-- A slot after the evaluation, by the entry found for it. -/
def filledSlot (entry : Nat → Sprite → Sprite) (found : Option Nat) (e : Sprite) : Sprite :=
  match found with
  | some n => entry n e
  | none => e.emptied

theorem fillSlots_getElem? (entry : Nat → Sprite → Sprite) (ns : List Nat) (es : List Sprite) (i : Nat) :
    (fillSlots entry ns es)[i]? = es[i]?.map (filledSlot entry ns[i]?) := by
  induction es generalizing ns i with
  | nil => cases ns <;> rfl
  | cons e es ih =>
    cases ns <;> cases i <;> simp [fillSlots, ih, filledSlot, Sprite.emptied]

/-! ## Shift and count (43 R226) -/

theorem tick_armed {e : Sprite} (h : e.x = 0) : e.tick = { e with shLo := e.shLo <<< 1, shHi := e.shHi <<< 1 } := by
  rw [Sprite.tick, h]
  rfl

theorem tick_counting {e : Sprite} (h : e.x ≠ 0) : e.tick = { e with x := e.x - 1 } := by
  rw [Sprite.tick, if_pos]
  exact Nat.pos_of_ne_zero fun h0 => h (BitVec.eq_of_toNat_eq h0)

theorem tick_entry (e : Sprite) : e.tick.y = e.y ∧ e.tick.tile = e.tile ∧ e.tick.attr = e.attr := by
  unfold Sprite.tick
  split <;> exact ⟨rfl, rfl, rfl⟩

/-- The counter goes down to 0 and stays there. -/
theorem tick_x (e : Sprite) : e.tick.x = BitVec.ofNat 8 (e.x.toNat - 1) := by
  by_cases h : e.x = 0
  · rw [tick_armed h, h]
    rfl
  · have hx := e.x.isLt
    have hpos : e.x.toNat ≠ 0 := fun h0 => h (BitVec.eq_of_toNat_eq h0)
    rw [tick_counting h]
    apply BitVec.eq_of_toNat_eq
    rw [BitVec.toNat_sub, BitVec.toNat_ofNat]
    change (2 ^ 8 - 1 + _) % _ = _
    omega

theorem windowSprites_getElem? {p : Ppu} (hc : p.cycle ≤ 257) {i : Nat} {e : Sprite} (he : p.sprites[i]? = some e) :
    p.windowSprites[i]? = some (if p.showSprites = true ∧ i < p.spriteCount then e.tick else e) := by
  rw [Ppu.windowSprites, decide_eq_true hc, Bool.and_true]
  by_cases hs : p.showSprites = true
  · simp [hs, onFirst_getElem?, he]
  · simp [hs, he]

theorem windowSprites_late {p : Ppu} (hc : 257 < p.cycle) : p.windowSprites = p.sprites := by
  rw [Ppu.windowSprites, decide_eq_false (by omega), Bool.and_false]
  rfl

theorem windowSprites_length (p : Ppu) : p.windowSprites.length = p.sprites.length := by
  unfold Ppu.windowSprites
  split
  · exact onFirst_length _ _ _
  · rfl

/-- The evaluation keeps the shift pair of every slot (43 R241, R246). -/
theorem evaluateSprites_shiftPair {p : Ppu} {l : Int} {i : Nat} {e : Sprite} (he : p.sprites[i]? = some e) :
    ∃ e', (p.evaluateSprites l).sprites[i]? = some e' ∧ e'.shLo = e.shLo ∧ e'.shHi = e.shHi := by
  refine ⟨filledSlot p.copyEntry (p.matchingEntries l)[i]? e, ?_, ?_⟩
  · exact (fillSlots_getElem? _ _ _ i).trans (by rw [he]; rfl)
  · cases (p.matchingEntries l)[i]? <;> exact ⟨rfl, rfl⟩

/-- A slot after the sprite shift, where the sprite is shown or not. -/
def Sprite.shifted (live : Prop) [Decidable live] (e : Sprite) : Sprite := if live then e.tick else e

section
variable {s : State}

/-- Over the dots 2 to 257 a slot is shifted; the evaluation keeps no more than its shift pair (43 R226, R244). -/
theorem beforePixel_slot (hw : s.ppu.inWindow) (hc : s.ppu.cycle ≤ 257) {i : Nat} {e : Sprite}
    (he : s.ppu.sprites[i]? = some e) :
    let e₁ := e.shifted (s.ppu.showSprites = true ∧ i < s.ppu.spriteCount)
    ∃ e', s.beforePixel.sprites[i]? = some e' ∧ e'.shLo = e₁.shLo ∧ e'.shHi = e₁.shHi ∧
      (¬ s.ppu.evaluationDot → e' = e₁) := by
  have hslot := windowSprites_getElem? hc he
  by_cases hev : s.ppu.evaluationDot
  · obtain ⟨e', he', hlo, hhi⟩ := evaluateSprites_shiftPair (p := s.windowDot) (l := s.ppu.scanline) hslot
    exact ⟨e', by rw [beforePixel_evaluation hev]; exact he', hlo, hhi, fun hn => absurd hev hn⟩
  · exact ⟨_, by rw [beforePixel_window hw hev]; exact hslot, rfl, rfl, fun _ => rfl⟩

/-- From cycle 258 to 339 of a rendering line no slot changes (43 R226). -/
theorem beforePixel_sprites_late (hl : -1 ≤ s.ppu.scanline ∧ s.ppu.scanline ≤ 239)
    (hc : 258 ≤ s.ppu.cycle ∧ s.ppu.cycle ≤ 339) : s.beforePixel.sprites = s.ppu.sprites := by
  have h := dotKind s
  generalize s.beforePixel = q at h
  cases h with
  | window => exact windowSprites_late (by omega)
  | idle | transfer => rfl
  | preRender | vblank | evaluation | spriteFetch => omega

theorem beforePixel_sprites_length (hl : -1 ≤ s.ppu.scanline ∧ s.ppu.scanline ≤ 239)
    (hc : 2 ≤ s.ppu.cycle ∧ s.ppu.cycle ≤ 339) : s.beforePixel.sprites.length = s.ppu.sprites.length := by
  have h := dotKind s
  generalize s.beforePixel = q at h
  cases h with
  | window => exact windowSprites_length _
  | evaluation => exact (fillSlots_length _ _ _).trans (windowSprites_length _)
  | idle | transfer => rfl
  | preRender | vblank | spriteFetch => omega

end

/-- Settles O46: a slot is shifted or counted where it is live, and the evaluation keeps its shift pair. -/
theorem spriteShift : Obligations.SpriteShift := by
  unfold Obligations.SpriteShift
  intro s h hl hc
  obtain ⟨x, y, hexec⟩ := exec_ppuClock h
  refine ⟨_, hexec, ?_, fun hlate => ?_, fun hearly i e e' he he' => ?_⟩
  · exact (congrArg List.length (dotPpu_sprites s)).trans (beforePixel_sprites_length hl hc)
  · exact (dotPpu_sprites s).trans (beforePixel_sprites_late hl ⟨hlate, hc.2⟩)
  rw [State.withPpuSide_ppu, dotPpu_sprites] at he'
  obtain ⟨e₂, he₂, hlo, hhi, hentry⟩ := beforePixel_slot (s := s) (by omega) hearly he
  cases he'.symm.trans he₂
  simp only [← shiftLeft_one_eq]
  by_cases hlive : s.ppu.mask.getLsbD 4 = true ∧ i < s.ppu.spriteCount
  · have hshift : e.shifted (s.ppu.showSprites = true ∧ i < s.ppu.spriteCount) = e.tick := if_pos hlive
    rw [hshift] at hlo hhi hentry
    refine ⟨fun _ hx => ?_, fun hn => ?_, fun hev => ?_⟩
    · rw [tick_armed hx] at hlo hhi
      exact ⟨hlo, hhi⟩
    · rw [tick_counting fun hx => hn ⟨hlive, hx⟩] at hlo hhi
      exact ⟨hlo, hhi⟩
    · obtain rfl := hentry (by omega)
      obtain ⟨hy, htile, hattr⟩ := tick_entry e
      exact ⟨hy, htile, hattr, fun _ => tick_x e, fun hn => absurd hlive hn⟩
  · have hshift : e.shifted (s.ppu.showSprites = true ∧ i < s.ppu.spriteCount) = e := if_neg hlive
    rw [hshift] at hlo hhi hentry
    refine ⟨fun h => absurd h hlive, fun _ => ⟨hlo, hhi⟩, fun hev => ?_⟩
    obtain rfl := hentry (by omega)
    exact ⟨rfl, rfl, rfl, fun h => absurd h hlive, fun _ => rfl⟩

/-! ## Evaluation (43 R240-R246) -/

/-- An entry matches where its rows hold the scanline (43 R245). -/
theorem spriteMatches_eq (height : Nat) (l : Int) (y : Byte) :
    spriteMatches height l y = decide ((y.toNat : Int) ≤ l ∧ l < (y.toNat : Int) + height) := by
  rw [spriteMatches, Bool.decide_and]
  congr 1 <;> rw [decide_eq_decide] <;> omega

/-- The entries of the OAM in range, in index order (43 R243, R245). -/
def Ppu.entriesInRange (p : Ppu) (l : Int) : List Nat :=
  (List.range 64).filter fun n =>
    decide (((p.oamByte (4 * n)).toNat : Int) ≤ l ∧ l < ((p.oamByte (4 * n)).toNat : Int) +
      (if p.ctrl.getLsbD 5 then 16 else 8 : Int))

theorem spriteHeight_cast (p : Ppu) : (p.spriteHeight : Int) = if p.ctrl.getLsbD 5 then 16 else 8 :=
  apply_ite (Nat.cast : Nat → Int) _ 16 8

theorem matchingEntries_eq (p : Ppu) (l : Int) : p.matchingEntries l = (p.entriesInRange l).take 8 := by
  simp only [Ppu.matchingEntries, Ppu.entriesInRange, spriteMatches_eq, spriteHeight_cast]

/-- In index order the first entry found is entry 0 exactly when entry 0 is found. -/
theorem head_filter_range (f : Nat → Bool) (n : Nat) :
    (((List.range (n + 1)).filter f).head? == some 0) = ((List.range (n + 1)).filter f).contains 0 := by
  rw [List.range_succ_eq_map, List.filter_cons]
  split
  · simp
  · have hmem : 0 ∉ ((List.range n).map Nat.succ).filter f := by simp
    have hhead : (((List.range n).map Nat.succ).filter f).head? ≠ some 0 := fun h => hmem (List.mem_of_mem_head? h)
    rw [beq_eq_false_iff_ne.2 hhead, List.contains_eq_mem, decide_eq_false hmem]

/-- What the evaluation leaves in a slot (43 R241, R246). -/
theorem evaluateSprites_slot (p : Ppu) (l : Int) {i : Nat} (hi : i < 8) {e : Sprite}
    (he : (p.evaluateSprites l).sprites[i]? = some e) :
    (∀ n, (p.entriesInRange l)[i]? = some n →
      e.y = p.oamByte (4 * n) ∧ e.tile = p.oamByte (4 * n + 1) ∧ e.attr = p.oamByte (4 * n + 2) ∧
        e.x = p.oamByte (4 * n + 3)) ∧
    ((p.entriesInRange l).length ≤ i → e.y = 0xFF ∧ e.tile = 0xFF ∧ e.attr = 0xFF ∧ e.x = 0xFF) := by
  have hfill := (fillSlots_getElem? p.copyEntry (p.matchingEntries l) p.sprites i).symm.trans he
  rw [matchingEntries_eq, List.getElem?_take, if_pos hi] at hfill
  obtain ⟨e₀, -, rfl⟩ := Option.map_eq_some_iff.1 hfill
  refine ⟨fun n hn => ?_, fun hn => ?_⟩
  · rw [hn]
    exact ⟨rfl, rfl, rfl, rfl⟩
  · rw [List.getElem?_eq_none hn]
    exact ⟨rfl, rfl, rfl, rfl⟩

/-- Settles O50: the evaluation works on the OAM and the Control of the dot, which the shifts before it leave alone. -/
theorem spriteEvaluation : Obligations.SpriteEvaluation := by
  unfold Obligations.SpriteEvaluation
  intro s h hl hc hslots
  obtain ⟨x, y, hexec⟩ := exec_ppuClock h
  have hq := beforePixel_evaluation (s := s) ⟨hl, hc⟩
  have hrange : s.windowDot.entriesInRange s.ppu.scanline = s.ppu.entriesInRange s.ppu.scanline := rfl
  have hfound := (matchingEntries_eq s.windowDot s.ppu.scanline).trans (congrArg (List.take 8) hrange)
  have hlength : s.beforePixel.sprites.length = 8 :=
    (beforePixel_sprites_length (by omega) (by omega)).trans hslots
  refine ⟨_, hexec, ?_, ?_, ?_, ?_, fun i e he => ?_⟩
  all_goals simp only [State.withPpuSide_ppu, dotPpu_spriteCount, dotPpu_zeroHitPossible, dotPpu_sprites] at *
  · rw [hq]
    exact (congrArg List.length hfound).trans List.length_take
  · rw [hq]
    change ((s.windowDot.matchingEntries s.ppu.scanline).head? == some 0) = _
    rw [hfound, List.head?_take, if_neg (by decide)]
    exact head_filter_range _ 63
  · rw [dotPpu_statusBit s (by decide) (by decide), hq]
    change (setBit _ 5 (decide ((s.windowDot.matchingEntries s.ppu.scanline).length = 8))).getLsbD 5 = _
    rw [getLsbD_setBit _ 5 5 _ (by decide), if_pos rfl, hfound, List.length_take, decide_eq_decide]
    exact min_eq_left_iff
  · exact hlength
  · have hi : i < 8 := hlength ▸ (List.getElem?_eq_some_iff.1 he).1
    rw [hq] at he
    exact evaluateSprites_slot s.windowDot s.ppu.scanline hi he

/-! ## The pattern address of a sprite row (43 R248, R249, 30 R98) -/

/-- Pattern table, tile and row take separate bits of the address. -/
theorem patternBits_toNat (table : Bool) {tile row : Addr} (htile : tile.toNat < 256) (hrow : row.toNat < 16) :
    (tableBase table ||| (tile <<< 4) ||| row).toNat =
      (if table then 0x1000 else 0) + tile.toNat * 16 + row.toNat := by
  have htable : (tableBase table).toNat = ((if table then 1 else 0) <<< 8) <<< 4 := by cases table <;> rfl
  have hshift : (tile <<< 4).toNat = tile.toNat <<< 4 := by
    rw [BitVec.toNat_shiftLeft, Nat.shiftLeft_eq, Nat.mod_eq_of_lt (by omega)]
  rw [BitVec.toNat_or, BitVec.toNat_or, htable, hshift, ← Nat.shiftLeft_or_distrib,
    ← Nat.shiftLeft_add_eq_or_of_lt hrow, ← Nat.shiftLeft_add_eq_or_of_lt htile]
  simp only [Nat.shiftLeft_eq]
  split <;> omega

theorem spriteRow_lt {height : Nat} (hpos : 0 < height) (l : Int) (e : Sprite) : spriteRow height l e < height := by
  have hlt := Int.emod_lt_of_pos (l - (e.y.toNat : Int)) (Int.natCast_pos.2 hpos)
  unfold spriteRow
  simp only
  split <;> omega

/-- The low-plane address of a sprite row as a number (30 R98). -/
def Ppu.spriteRowAddress (p : Ppu) (l : Int) (e : Sprite) : Nat :=
  let row := spriteRow p.spriteHeight l e
  if p.spriteSize then e.tile.toNat % 2 * 0x1000 + (e.tile.toNat / 2 * 2 + row / 8) * 16 + row % 8
  else (if p.spritePatternTable then 0x1000 else 0) + e.tile.toNat * 16 + row

theorem spritePatternAddress_eq (p : Ppu) (l : Int) (e : Sprite) :
    spritePatternAddress p l e = BitVec.ofNat 16 (p.spriteRowAddress l e) := by
  have htile := e.tile.isLt
  apply BitVec.eq_of_toNat_eq
  rw [BitVec.toNat_ofNat]
  cases hsize : p.spriteSize with
  | true =>
    have hheight : p.spriteHeight = 16 := by rw [Ppu.spriteHeight, hsize]; rfl
    have hrow := spriteRow_lt (height := 16) (by decide) l e
    have hlow : ((BitVec.ofNat 16 (spriteRow 16 l e) : Addr) &&& 0x7).toNat = spriteRow 16 l e % 8 := by
      rw [low3_toNat, BitVec.toNat_ofNat]
      omega
    have hpair : ((e.tile &&& 0xFE).setWidth 16 + ((BitVec.ofNat 16 (spriteRow 16 l e) : Addr) >>> 3)).toNat =
        e.tile.toNat / 2 * 2 + spriteRow 16 l e / 8 := by
      have heven : (e.tile &&& 0xFE).toNat = e.tile.toNat / 2 * 2 := and_highMask_toNat e.tile 1 rfl
      rw [BitVec.toNat_add, BitVec.toNat_setWidth_of_le (by decide), heven, BitVec.toNat_ushiftRight, BitVec.toNat_ofNat,
        Nat.shiftRight_eq_div_pow]
      omega
    have htable : (if e.tile.getLsbD 0 then 0x1000 else 0) = e.tile.toNat % 2 * 0x1000 := by
      simp only [getLsbD_iff_toNat, Nat.pow_zero, Nat.div_one]
      split <;> omega
    simp only [spritePatternAddress, Ppu.spriteRowAddress, hsize, hheight, if_true]
    rw [patternBits_toNat _ (by omega) (by omega), hlow, hpair, htable]
    omega
  | false =>
    have hheight : p.spriteHeight = 8 := by rw [Ppu.spriteHeight, hsize]; rfl
    have hrow := spriteRow_lt (height := 8) (by decide) l e
    have hlow : (BitVec.ofNat 16 (spriteRow 8 l e) : Addr).toNat = spriteRow 8 l e := by
      rw [BitVec.toNat_ofNat]
      omega
    have hnumber : (e.tile.setWidth 16).toNat = e.tile.toNat := BitVec.toNat_setWidth_of_le (by decide)
    simp only [spritePatternAddress, Ppu.spriteRowAddress, hsize, hheight]
    rw [if_neg (by decide), if_neg (by decide), patternBits_toNat _ (by omega) (by omega), hlow, hnumber]
    split <;> omega

/-- Reversal takes bit `k` from bit `7 - k` (43 R250). -/
theorem rev8_getLsbD (b : Byte) {k : Nat} (hk : k < 8) : (rev8 b).getLsbD k = b.getLsbD (7 - k) := by
  show @BitVec.getLsbD (1 + 1 + 1 + 1 + 1 + 1 + 1 + 1) (BitVec.ofBool (b.getLsbD 0) ++ BitVec.ofBool (b.getLsbD 1) ++
    BitVec.ofBool (b.getLsbD 2) ++ BitVec.ofBool (b.getLsbD 3) ++ BitVec.ofBool (b.getLsbD 4) ++
    BitVec.ofBool (b.getLsbD 5) ++ BitVec.ofBool (b.getLsbD 6) ++ BitVec.ofBool (b.getLsbD 7)) k = _
  simp only [BitVec.getLsbD_append, BitVec.getLsbD_ofBool]
  interval_cases k <;> simp

/-! ## The fetch (43 R249) -/

/-- A slot after the fetch of its row. -/
def State.fetchedSlot (s : State) (p : Ppu) (l : Int) (e : Sprite) : Sprite :=
  e.loaded (s.ppuPeek (spritePatternAddress p l e)) (s.ppuPeek (spritePatternAddress p l e + 8))

theorem slot_of_getElem? {p : Ppu} {i : Nat} {e : Sprite} (he : p.sprites[i]? = some e) : p.slot i = e := by
  rw [Ppu.slot, he]
  rfl

theorem spritePpu_getElem? (s : State) (l : Int) (i j : Nat) (p : Ppu) :
    (s.spritePpu l i p).sprites[j]? = p.sprites[j]?.map fun e => if j = i then s.fetchedSlot p l e else e := by
  change (p.sprites.set i (s.fetchedSlot p l (p.slot i)))[j]? = _
  rw [List.getElem?_set]
  by_cases hj : j = i
  · subst hj
    cases he : p.sprites[j]? with
    | none => simp [List.getElem?_eq_none_iff.1 he]
    | some e => simp [slot_of_getElem? he, (List.getElem?_eq_some_iff.1 he).1]
  · simp [hj, Ne.symm hj]

/-- The fetch of `n` slots from slot `i` loads each of them from its own row, and no other. -/
theorem spritesPpu_getElem? (s : State) (l : Int) (i n j : Nat) (p : Ppu) :
    (s.spritesPpu l i n p).sprites[j]? =
      p.sprites[j]?.map fun e => if i ≤ j ∧ j < i + n then s.fetchedSlot p l e else e := by
  induction n generalizing i p with
  | zero =>
    have hnone : ¬ (i ≤ j ∧ j < i + 0) := by omega
    simp only [hnone, if_false, Option.map_id']
    rfl
  | succ n ih =>
    refine (ih (i + 1) (s.spritePpu l i p)).trans ?_
    rw [spritePpu_getElem?, Option.map_map]
    refine congrArg (Option.map · _) (funext fun e => ?_)
    rcases Nat.lt_trichotomy j i with hj | rfl | hj
    · simp only [Function.comp, if_neg (show ¬ j = i by omega), if_neg (show ¬ (i + 1 ≤ j ∧ j < i + 1 + n) by omega),
        if_neg (show ¬ (i ≤ j ∧ j < i + (n + 1)) by omega)]
    · simp only [Function.comp, if_true, if_neg (show ¬ (j + 1 ≤ j ∧ j < j + 1 + n) by omega),
        if_pos (show j ≤ j ∧ j < j + (n + 1) by omega)]
    · have hiff : (i + 1 ≤ j ∧ j < i + 1 + n) ↔ (i ≤ j ∧ j < i + (n + 1)) := by omega
      simp only [Function.comp, if_neg (show ¬ j = i by omega), hiff]
      rfl

theorem spritesPpu_length (s : State) (l : Int) (i n : Nat) (p : Ppu) :
    (s.spritesPpu l i n p).sprites.length = p.sprites.length := by
  induction n generalizing i p with
  | zero => rfl
  | succ n ih => exact (ih (i + 1) (s.spritePpu l i p)).trans List.length_set

theorem loaded_shiftPair (lo hi : Byte) (e : Sprite) {k : Nat} (hk : k < 8) :
    (e.loaded lo hi).shLo.getLsbD k = lo.getLsbD (if e.attr.getLsbD 6 then 7 - k else k) ∧
      (e.loaded lo hi).shHi.getLsbD k = hi.getLsbD (if e.attr.getLsbD 6 then 7 - k else k) := by
  unfold Sprite.loaded Sprite.flipH
  cases e.attr.getLsbD 6
  · exact ⟨rfl, rfl⟩
  · exact ⟨rev8_getLsbD lo hk, rev8_getLsbD hi hk⟩

/-! ## The claim flags of the fetch (40 R133) -/

/-- An access below the palette sets the PPU chain's flags whatever they were (40 R133). -/
theorem claimsAfterPpu_chain (s : State) {a : Addr} (ha : a.toNat < 0x3F00) :
    s.claimsAfterPpu a = Claims.ppuSide s.claimed (s.ppuResponder a) := by
  rw [State.claimsAfterPpu, addr14_of_lt (by omega)]
  exact if_neg (by omega)

/-- The last of two accesses decides the flags (40 R133). -/
theorem claimsAfterPpu_claimsAfterPpu (s : State) (a : Addr) {b : Addr} (hb : b.toNat < 0x3F00) :
    State.claimsAfterPpu { s with claimed := s.claimsAfterPpu a } b = s.claimsAfterPpu b := by
  rw [claimsAfterPpu_chain _ hb, claimsAfterPpu_chain s hb]
  change Claims.ppuSide (s.claimsAfterPpu a) (s.ppuResponder b) = _
  unfold State.claimsAfterPpu
  simp only
  split <;> rfl

theorem claimsAfterPpu_withPpuSide (s : State) (x y : Bool) (p : Ppu) {a : Addr} (ha : a.toNat < 0x3F00) :
    (s.withPpuSide x y p).claimsAfterPpu a = s.claimsAfterPpu a := by
  rw [claimsAfterPpu_chain _ ha, claimsAfterPpu_chain s ha]
  rfl

theorem spriteRowAddress_lt (p : Ppu) (l : Int) (e : Sprite) : p.spriteRowAddress l e < 0x2000 := by
  have htile := e.tile.isLt
  cases hsize : p.spriteSize with
  | true =>
    have hheight : p.spriteHeight = 16 := by rw [Ppu.spriteHeight, hsize]; rfl
    have hrow := spriteRow_lt (height := 16) (by decide) l e
    simp only [Ppu.spriteRowAddress, hsize, hheight, if_true]
    omega
  | false =>
    have hheight : p.spriteHeight = 8 := by rw [Ppu.spriteHeight, hsize]; rfl
    have hrow := spriteRow_lt (height := 8) (by decide) l e
    simp only [Ppu.spriteRowAddress, hsize, hheight]
    rw [if_neg (by decide)]
    split <;> omega

theorem highPlane_lt (p : Ppu) (l : Int) (e : Sprite) : (spritePatternAddress p l e + 8).toNat < 0x3F00 := by
  have hlt := spriteRowAddress_lt p l e
  rw [spritePatternAddress_eq, ofNat_add_eight, BitVec.toNat_ofNat]
  omega

theorem fetchSprite_claimed {s : State} (h : Cart.chrInBounds s.cart) (l : Int) (i : Nat) :
    (endState (fetchSprite l i s)).claimed = s.claimsAfterPpu (spritePatternAddress s.ppu l (s.ppu.slot i) + 8) := by
  unfold fetchSprite
  simp only [ppuRead_eq _ s h]
  rw [ppuRead_eq _ _ (by exact h)]
  exact claimsAfterPpu_claimsAfterPpu s _ (highPlane_lt s.ppu l (s.ppu.slot i))

theorem fetchSpritesFrom_last (l : Int) (i n : Nat) (s : State) :
    fetchSpritesFrom l i (n + 1) s = (fetchSpritesFrom l i n s).bind (fetchSprite l (i + n)) := by
  induction n generalizing i s with
  | zero =>
    rw [fetchSpritesFrom_succ]
    cases hf : fetchSprite l i s with
    | error t => exact hf.symm
    | ok t => exact hf.symm
  | succ n ih =>
    rw [fetchSpritesFrom_succ, fetchSpritesFrom_succ l i n]
    cases fetchSprite l i s with
    | error t => rfl
    | ok t => exact (ih (i + 1) t).trans (by rw [Nat.add_right_comm, Nat.add_assoc]; rfl)

/-- The flags after the fetch of slots 0 to `n` are those of the high plane of slot `n`. -/
theorem fetchSprites_claimed {s : State} (h : Cart.chrInBounds s.cart) (l : Int) {n : Nat} {e : Sprite}
    (he : s.ppu.sprites[n]? = some e) :
    (endState (fetchSpritesFrom l 0 (n + 1) s)).claimed = s.claimsAfterPpu (spritePatternAddress s.ppu l e + 8) := by
  obtain ⟨x, y, hfetch⟩ := fetchSpritesFrom_eq s l n h s.claimed.cartPpu s.claimed.videoRam s.ppu 0 ⟨rfl, rfl⟩
  rw [← State.eq_withPpuSide] at hfetch
  have hslot : (s.spritesPpu l 0 n s.ppu).slot n = e := by
    apply slot_of_getElem?
    rw [spritesPpu_getElem?, he, Option.map_some, if_neg (by omega)]
  have haddress : ∀ q, (∃ es, q = { s.ppu with sprites := es }) →
      spritePatternAddress q l e = spritePatternAddress s.ppu l e := by
    rintro _ ⟨es, rfl⟩
    rfl
  rw [fetchSpritesFrom_last, hfetch]
  change (endState (fetchSprite l (0 + n) _)).claimed = _
  rw [fetchSprite_claimed (by exact h), Nat.zero_add, State.withPpuSide_ppu, hslot,
    haddress _ ⟨_, spritesPpu_eq s l 0 n s.ppu⟩, claimsAfterPpu_withPpuSide s x y _ (highPlane_lt s.ppu l e)]

/-- A clock of the sprite fetch dot makes the accesses of that fetch alone. -/
theorem clock_claimed_spriteFetch {s : State} (hf : s.ppu.spriteFetchDot) :
    (endState (clock s)).claimed =
      (endState (fetchSpritesFrom s.ppu.scanline 0 s.ppu.spriteCount (s.mapPpu Ppu.clearFrameComplete))).claimed := by
  obtain ⟨hl, hc⟩ := hf
  have hpre : decide (s.ppu.scanline = -1) = false := decide_eq_false (by omega)
  have hline : Ppu.lineEndEvents s.ppu.scanline 340 = id := funext fun p => lineEndEvents_other _ (by decide) (by decide) p
  rw [clock_eq_bind, lineEvents, if_pos (by omega), renderEvents_eq_bind, hpre, hc]
  change (endState (((spriteEvents s.ppu.scanline 340
    ((s.mapPpu Ppu.clearFrameComplete).mapPpu (Ppu.lineEndEvents s.ppu.scanline 340))).bind _).bind _)).claimed = _
  rw [hline, spriteEvents, if_pos ⟨rfl, hl.1⟩]
  change (endState (((fetchSpritesFrom s.ppu.scanline 0 s.ppu.spriteCount (s.mapPpu Ppu.clearFrameComplete)).bind _).bind
    _)).claimed = _
  cases fetchSpritesFrom s.ppu.scanline 0 s.ppu.spriteCount (s.mapPpu Ppu.clearFrameComplete) <;> rfl

/-- Settles O51: the slots are loaded one by one, and the last access leaves its flags. -/
theorem spriteFetch : Obligations.SpriteFetch := by
  unfold Obligations.SpriteFetch
  intro s h hl hc
  have hf : s.ppu.spriteFetchDot := ⟨hl, hc⟩
  obtain ⟨x, y, hclock⟩ := clock_eq s h
  have hclaimed := clock_claimed_spriteFetch hf
  rw [hclock] at hclaimed
  have hslots (i : Nat) : s.dotPpu.sprites[i]? = s.ppu.sprites[i]?.map fun e =>
      if i < s.ppu.spriteCount then s.fetchedSlot s.ppu s.ppu.scanline e else e := by
    rw [dotPpu_sprites, beforePixel_spriteFetch hf]
    refine (spritesPpu_getElem? s s.ppu.scanline 0 s.ppu.spriteCount i s.ppu.clearFrameComplete).trans ?_
    simp only [Nat.zero_le, Nat.zero_add, true_and]
    rfl
  have hlow (e : Sprite) :
      spritePatternAddress s.ppu s.ppu.scanline e + 8 = BitVec.ofNat 16 (s.ppu.spriteRowAddress s.ppu.scanline e + 8) := by
    rw [spritePatternAddress_eq, ofNat_add_eight]
  refine ⟨_, congrArg finish hclock, ?_, fun hnone => ?_, fun i e he => ⟨fun hi => ?_, fun hi => ?_, fun hi => ?_⟩⟩
  · change s.dotPpu.sprites.length = _
    rw [dotPpu_sprites, beforePixel_spriteFetch hf]
    exact spritesPpu_length _ _ _ _ _
  · rw [hnone] at hclaimed
    exact hclaimed
  · exact (hslots i).trans (by rw [he, Option.map_some, if_neg (by omega)])
  · rw [hi] at hclaimed
    refine (hclaimed.trans (fetchSprites_claimed (s := s.mapPpu Ppu.clearFrameComplete) h _ he)).trans ?_
    exact congrArg s.claimsAfterPpu (hlow e)
  · refine ⟨_, (hslots i).trans (by rw [he, Option.map_some, if_pos hi]), rfl, fun k hk => ?_⟩
    rw [State.fetchedSlot, hlow, spritePatternAddress_eq]
    exact loaded_shiftPair _ _ e hk

end Sys2Proof.Machine
end

section
/-!
SUPPORT. Pixel selection, priority and colour as numbers (spec 43 R251-R256, 30 R99).
-/
namespace Sys2Proof.Machine

/-! ## The background pixel (43 R251) -/

/-- Two bits side by side, as a number. -/
theorem ofBool_append_ofBool (x y : Bool) :
    BitVec.ofBool x ++ BitVec.ofBool y = BitVec.ofNat 2 (2 * x.toNat + y.toNat) := by
  cases x <;> cases y <;> rfl

/-- The mask `0x8000 >> fineX` selects bit `15 - fineX` (43 R251). -/
theorem bgBit_eq (p : Ppu) (sh : BitVec 16) : p.bgBit sh = sh.getLsbD (15 - p.fineX.toNat) := by
  have hmask : ∀ x : BitVec 3, (0x8000#16) >>> x.toNat = BitVec.twoPow 16 (15 - x.toNat) := by decide
  have hne : BitVec.twoPow 16 (15 - p.fineX.toNat) ≠ 0 := by
    rw [← hmask]
    generalize p.fineX = x
    revert x
    decide
  rw [Ppu.bgBit, hmask, BitVec.and_twoPow]
  cases sh.getLsbD (15 - p.fineX.toNat)
  · rfl
  · exact bne_iff_ne.2 hne

theorem bgBit_toNat (p : Ppu) (sh : BitVec 16) : (p.bgBit sh).toNat = sh.toNat / 2 ^ (15 - p.fineX.toNat) % 2 := by
  rw [bgBit_eq]
  exact Nat.toNat_testBit _ _

/-- A layer is shown where it is enabled and not clipped (43 R251, R252). -/
theorem shown_iff (p : Ppu) (enabled left : Bool) :
    (enabled && !(p.leftColumn && !left)) = true ↔
      enabled = true ∧ ¬ ((1 ≤ p.cycle ∧ p.cycle ≤ 8) ∧ left = false) := by
  simp only [Ppu.leftColumn, Bool.and_eq_true, Bool.not_eq_true', Bool.and_eq_false_iff, decide_eq_false_iff_not,
    Bool.not_eq_false', not_and_or, Bool.not_eq_false]

/-! ## The sprite pixel (43 R252) -/

theorem topBit_toNat (b : Byte) : (b.getLsbD 7).toNat = b.toNat / 128 := by
  have hb := b.isLt
  have hbit := Nat.toNat_testBit b.toNat 7
  rw [BitVec.getLsbD, hbit]
  omega

/-- The pixel at a slot's shift registers as a number. -/
def Sprite.pixelNumber (e : Sprite) : Nat := e.shHi.toNat / 128 * 2 + e.shLo.toNat / 128

theorem pixel_eq (e : Sprite) : e.pixel = BitVec.ofNat 2 e.pixelNumber := by
  rw [Sprite.pixel, ofBool_append_ofBool, topBit_toNat, topBit_toNat, Sprite.pixelNumber, Nat.mul_comm]

theorem pixel_ne_zero_iff (e : Sprite) : (e.pixel != 0) = true ↔ e.pixelNumber ≠ 0 := by
  have hhi := e.shHi.isLt
  have hlo := e.shLo.isLt
  rw [bne_iff_ne, pixel_eq, ne_eq, ← BitVec.toNat_inj, BitVec.toNat_ofNat, Sprite.pixelNumber]
  change ¬ _ % _ = 0 ↔ _
  omega

/-- A slot that shows a pixel: its counter has run out and its pixel is not 0 (43 R252). -/
def Sprite.Armed (e : Sprite) : Prop := e.x = 0 ∧ e.pixelNumber ≠ 0

theorem armed_iff (e : Sprite) : (e.x == 0 && e.pixel != 0) = true ↔ e.Armed := by
  rw [Bool.and_eq_true, beq_iff_eq, pixel_ne_zero_iff]
  rfl

/-- The palettes of sprites are 4 to 7 (43 R252). -/
theorem spritePalette_eq (e : Sprite) : 4 + e.palette.setWidth 3 = BitVec.ofNat 3 (4 + e.attr.toNat % 4) := by
  have hpalette : e.palette.toNat = e.attr.toNat % 4 := BitVec.extractLsb'_toNat ..
  apply BitVec.eq_of_toNat_eq
  rw [BitVec.toNat_add, BitVec.toNat_setWidth_of_le (by decide), hpalette, BitVec.toNat_ofNat]
  rfl

/-- The pixel of slot `i`. -/
def Sprite.fgPixel (i : Nat) (e : Sprite) : FgPixel :=
  { pixel := BitVec.ofNat 2 e.pixelNumber, pal := BitVec.ofNat 3 (4 + e.attr.toNat % 4), behind := e.attr.getLsbD 5
    zeroRendered := decide (i = 0) }

theorem firstOpaque_armed (i : Nat) {e : Sprite} (h : e.Armed) (es : List Sprite) :
    firstOpaque i (e :: es) = e.fgPixel i := by
  rw [firstOpaque, if_pos ((armed_iff e).2 h), pixel_eq, spritePalette_eq]
  rfl

theorem firstOpaque_notArmed (i : Nat) {e : Sprite} (h : ¬ e.Armed) (es : List Sprite) :
    firstOpaque i (e :: es) = firstOpaque (i + 1) es := by
  rw [firstOpaque, if_neg (mt (armed_iff e).1 h)]

/-- The first armed slot gives the pixel (43 R252). -/
theorem firstOpaque_found (es : List Sprite) (k : Nat) {i : Nat} {e : Sprite} (he : es[i]? = some e) (harmed : e.Armed)
    (hfirst : ∀ (j : Nat) (e' : Sprite), j < i → es[j]? = some e' → ¬ e'.Armed) :
    firstOpaque k es = e.fgPixel (k + i) := by
  induction es generalizing k i with
  | nil => cases he
  | cons a es ih =>
    cases i with
    | zero =>
      cases he
      exact firstOpaque_armed k harmed es
    | succ i =>
      have ha : ¬ a.Armed := hfirst 0 a (Nat.succ_pos i) rfl
      rw [firstOpaque_notArmed k ha, ih (k + 1) he fun j e' hj => hfirst (j + 1) e' (Nat.succ_lt_succ hj)]
      rw [Nat.add_right_comm, Nat.add_assoc]

theorem firstOpaque_none (es : List Sprite) (k : Nat) (h : ∀ (i : Nat) (e : Sprite), es[i]? = some e → ¬ e.Armed) :
    firstOpaque k es = FgPixel.transparent := by
  induction es generalizing k with
  | nil => rfl
  | cons a es ih => rw [firstOpaque_notArmed k (h 0 a rfl), ih (k + 1) fun i e => h (i + 1) e]

/-- Settles O52: the clipping test as in 43 R251 and R252, the selected bits as numbers, and the search over the slots. -/
theorem pixelSelection : Obligations.PixelSelection := by
  unfold Obligations.PixelSelection
  intro p
  have hlisted (i : Nat) (e : Sprite) :
      (p.sprites.take p.spriteCount)[i]? = some e ↔ i < p.spriteCount ∧ p.sprites[i]? = some e := by
    rw [List.getElem?_take]
    split <;> simp [*]
  refine ⟨fun hshown => ?_, fun hhidden => ?_, fun hshown => ⟨fun i e he hfirst => ?_, fun hnone => ?_⟩,
    fun hhidden => ?_⟩
  · refine (if_pos ((shown_iff p p.showBg p.showBgLeft).2 hshown)).trans ?_
    simp only [ofBool_append_ofBool, bgBit_toNat]
  · exact if_neg (mt (shown_iff p p.showBg p.showBgLeft).1 hhidden)
  · obtain ⟨hi, he, harmed⟩ := he
    refine (if_pos ((shown_iff p p.showSprites p.showSpritesLeft).2 hshown)).trans ?_
    rw [firstOpaque_found _ 0 ((hlisted i e).2 ⟨hi, he⟩) harmed, Nat.zero_add]
    · rfl
    · intro j e' hj he' harmed'
      obtain ⟨hj', he'⟩ := (hlisted j e').1 he'
      exact hfirst j e' hj ⟨hj', he', harmed'⟩
  · refine (if_pos ((shown_iff p p.showSprites p.showSpritesLeft).2 hshown)).trans ?_
    refine firstOpaque_none _ 0 fun i e he harmed => ?_
    obtain ⟨hi, he⟩ := (hlisted i e).1 he
    exact hnone i e ⟨hi, he, harmed⟩
  · exact if_neg (mt (shown_iff p p.showSprites p.showSpritesLeft).1 hhidden)

/-! ## Priority, colour and the hit (43 R253, R254, R256) -/

/-- The palette entry of a pixel as a number (30 R99). -/
theorem pixelPaletteAddress_eq (pal : BitVec 3) (pixel : BitVec 2) :
    pixelPaletteAddress pal pixel = BitVec.ofNat 16 (0x3F00 + (4 * pal.toNat + pixel.toNat)) := by
  have hpal := pal.isLt
  have hpixel := pixel.isLt
  apply BitVec.eq_of_toNat_eq
  rw [pixelPaletteAddress, BitVec.toNat_add, BitVec.toNat_add, BitVec.toNat_shiftLeft,
    BitVec.toNat_setWidth_of_le (by decide), BitVec.toNat_setWidth_of_le (by decide), Nat.shiftLeft_eq, BitVec.toNat_ofNat,
    BitVec.toNat_ofNat]
  omega

theorem pixel_beq_zero_iff (x : BitVec 2) : (x == 0) = true ↔ x.toNat = 0 := beq_ofNat_iff x (by decide)

/-- The winner of the priority resolution as a palette entry (43 R253). -/
theorem resolvePixel_entry (bg : BitVec 2 × BitVec 2) (fg : FgPixel) :
    4 * (resolvePixel bg fg).2.toNat + (resolvePixel bg fg).1.toNat =
      if bg.1.toNat = 0 ∧ fg.pixel.toNat = 0 then 0
      else if bg.1.toNat ≠ 0 ∧ (fg.pixel.toNat = 0 ∨ fg.behind = true) then 4 * bg.2.toNat + bg.1.toNat
      else 4 * fg.pal.toNat + fg.pixel.toNat := by
  have hwidth : (bg.2.setWidth 3).toNat = bg.2.toNat := BitVec.toNat_setWidth_of_le (by decide)
  simp only [resolvePixel, Bool.and_eq_true, pixel_beq_zero_iff]
  by_cases hbg : bg.1.toNat = 0
  · by_cases hfg : fg.pixel.toNat = 0
    · simp only [hbg, hfg]
      rfl
    · simp only [hbg, hfg]
      rfl
  · by_cases hfg : fg.pixel.toNat = 0
    · simp [hbg, hfg, hwidth]
    · cases hbehind : fg.behind
      · simp [hbg, hfg]
      · simp [hbg, hfg, hwidth]

theorem pixel_bne_zero_iff (x : BitVec 2) : (x != 0) = true ↔ x.toNat ≠ 0 := by
  rw [bne_iff_ne, ne_eq, ne_eq, ← pixel_beq_zero_iff, beq_iff_eq]

/-- Settles O53: the winner is one palette entry, and the hit is the conjunction of its five conditions. -/
theorem priorityAndColour : Obligations.PriorityAndColour := by
  unfold Obligations.PriorityAndColour
  refine fun p => ⟨?_, ?_⟩
  · refine congrArg (fun a => (p.palRead a).setWidth 6) ?_
    rw [pixelPaletteAddress_eq, resolvePixel_entry]
  · rw [Ppu.zeroHitNow]
    simp only [Bool.and_eq_true, pixel_bne_zero_iff, visibleDot_iff, and_assoc]

end Sys2Proof.Machine
end

section
/-!
SUPPORT. One system step and the batch of its CPU clock (spec 44 R273-R275): the delivery as one equation, and a transaction
abandoned exactly where it sets the fault mark (60 R291).
-/
namespace Sys2Proof.Machine

/-! ## The batch of a CPU clock (44 R274) -/

/-- A completed operation keeps the fault mark of `s`, an abandoned one has set a mark (60 R291). -/
def Halting.Marked (s : State) : Halting State → Prop
  | .ok t => t.fault = s.fault
  | .error t => t.fault.isSome = true

theorem replyWith_readRegister_marked (r : Nat) (s : State) : (replyWith (readRegister r s)).Marked s := by
  unfold readRegister
  split
  · exact rfl
  · exact rfl
  · unfold readData
    rcases ppuRead_cases (Loopy.ppuAddress s.ppu.v) s with ⟨b, c, h, -⟩ | ⟨c, f, h, -⟩ <;> simp only [h]
    · split <;> exact rfl
    · exact rfl
  · exact rfl

theorem cpuTransaction_marked (txn : CpuTxn) (s : State) : (cpuTransaction txn s).Marked s := by
  cases txn with
  | read a =>
    by_cases hwin : 0x2000 ≤ a.toNat ∧ a.toNat ≤ 0x3FFF
    · rw [cpuTransaction, cpuBusRead_register a s hwin.1 hwin.2]
      exact replyWith_readRegister_marked _ s.ppuClaims
    · rw [cpuTransaction, cpuBusRead_memory a s (by omega)]
      split
      · split <;> exact rfl
      · exact rfl
      · exact rfl
  | write a d => exact cpuWrite_fault a d s

/-- A batch goes on after its first transaction unless that one faulted (60 R291). -/
theorem endState_runBatch_cons (txn : CpuTxn) (rest : List CpuTxn) {s : State} (h : s.fault = none) :
    endState (runBatch (txn :: rest) s) =
      if (endState (cpuTransaction txn s)).fault.isSome then endState (cpuTransaction txn s)
      else endState (runBatch rest (endState (cpuTransaction txn s))) := by
  have hmarked := cpuTransaction_marked txn s
  rw [runBatch_cons]
  cases hr : cpuTransaction txn s with
  | ok t =>
    rw [hr] at hmarked
    have hnone : t.fault = none := hmarked.trans h
    simp only [endState, hnone]
    rfl
  | error t =>
    rw [hr] at hmarked
    exact (if_pos hmarked).symm

/-- Settles O38: a CPU word is one transaction of the bus, and a transaction is abandoned exactly where it faults. -/
theorem batchRunsCpuWords : Obligations.BatchRunsCpuWords := by
  unfold Obligations.BatchRunsCpuWords
  intro s txn rest t hfault hword
  have hfirst : finish (cpuTransaction txn s) = .next t := by
    cases txn with
    | read a => exact (exec_decodeCpuRead a s).symm.trans hword
    | write a d => exact (exec_decodeCpuWrite a d s).symm.trans hword
  cases hfirst
  exact ⟨rfl, endState_runBatch_cons txn rest hfault⟩

/-! ## The system step (44 R273) -/

/-- Delivery clears the request, and logs the call where there was one (44 R275). -/
theorem deliverNmi_eq (s : State) :
    deliverNmi s = { s with
      ppu := { s.ppu with nmiPending := false }
      env := { s.env with cpuCalls := (if s.ppu.nmiPending then [.nmi] else []) ++ s.env.cpuCalls } } := by
  cases h : s.ppu.nmiPending with
  | true => rw [deliverNmi, if_pos h]; rfl
  | false =>
    have hppu : { s.ppu with nmiPending := false } = s.ppu := by rw [← h]
    rw [deliverNmi, if_neg (Bool.eq_false_iff.1 h), hppu]
    rfl

/-- A running system step completes its clocks, delivers, and ends with the CPU clock (44 R273). -/
theorem exec_sysStep_running {s t : State} (hr : s.running = true) (ht : clocks 3 s = .ok t) :
    exec .sysStep s = .next (endState (cpuClock (deliverNmi t))) := by
  change finish (systemStep s) = _
  rw [systemStep_running hr, ht]
  rfl

theorem exec_sysStep_paused {s : State} (hr : s.running = false) : exec .sysStep s = .next s := by
  change finish (systemStep s) = _
  rw [systemStep, if_neg (Bool.eq_false_iff.1 hr)]
  rfl

/-- With CHR in bounds a PPU_CLOCK completes, and keeps the cartridge and the environment (43 R260). -/
theorem exec_ppuClock_completes {s : State} (h : Cart.chrInBounds s.cart) :
    ∃ t, exec .ppuClock s = .next t ∧ clock s = .ok t ∧ Cart.chrInBounds t.cart ∧ t.env = s.env := by
  obtain ⟨x, y, hclock⟩ := clock_eq s h
  exact ⟨_, congrArg finish hclock, hclock, h, rfl⟩

end Sys2Proof.Machine

namespace Sys2Proof
open Machine

/-- Settles O37: with CHR in bounds the three clocks complete and keep the environment, and the delivery is one equation. -/
theorem systemStep : Obligations.SystemStep := by
  unfold Obligations.SystemStep
  refine fun s => ⟨exec_sysStep_paused, fun hr hchr => ?_⟩
  obtain ⟨s1, hexec1, hclock1, hchr1, henv1⟩ := exec_ppuClock_completes hchr
  obtain ⟨s2, hexec2, hclock2, hchr2, henv2⟩ := exec_ppuClock_completes hchr1
  obtain ⟨s3, hexec3, hclock3, -, henv3⟩ := exec_ppuClock_completes hchr2
  have hclocks : clocks 3 s = .ok s3 := by simp only [clocks, hclock1, hclock2, hclock3]
  refine ⟨s1, s2, s3, hexec1, hexec2, hexec3, ?_⟩
  rw [exec_sysStep_running hr hclocks, deliverNmi_eq, henv3, henv2, henv1]
  rfl

end Sys2Proof
end

section
/-!
SUPPORT. The run toggle (spec 44 R278): every operation but SYS_STEP and SET_RUN acts alike whatever it holds.
-/
namespace Sys2Proof.Machine

/-! ## Another toggle -/

/-- `s` with the run toggle at `b`. -/
def State.withRunning (b : Bool) (s : State) : State := { s with running := b }

section
variable (b : Bool) (s : State)

@[simp] theorem State.withRunning_cart : (s.withRunning b).cart = s.cart := rfl
@[simp] theorem State.withRunning_ppu : (s.withRunning b).ppu = s.ppu := rfl
@[simp] theorem State.withRunning_ppuResponder (a : Addr) : (s.withRunning b).ppuResponder a = s.ppuResponder a := rfl
@[simp] theorem State.withRunning_cpuResponder (a : Addr) : (s.withRunning b).cpuResponder a = s.cpuResponder a := rfl

end

/-- The outcome `r`, completed or abandoned, with the run toggle at `b`. -/
def Halting.withRunning (b : Bool) : Halting State → Halting State
  | .ok s => .ok (s.withRunning b)
  | .error s => .error (s.withRunning b)

/-- The outcome `r` of a read with the run toggle at `b`. -/
def Halting.readWithRunning (b : Bool) : Halting (Byte × State) → Halting (Byte × State)
  | .ok r => .ok (r.1, r.2.withRunning b)
  | .error s => .error (s.withRunning b)

theorem endState_withRunning (b : Bool) (r : Halting State) :
    endState (r.withRunning b) = (endState r).withRunning b := by
  cases r <;> rfl

/-- An operation that acts alike whatever the run toggle holds. -/
def ActsAlike (f : State → Halting State) : Prop := ∀ b s, f (s.withRunning b) = (f s).withRunning b

/-- A read that acts alike whatever the run toggle holds. -/
def ReadsAlike (f : State → Halting (Byte × State)) : Prop := ∀ b s, f (s.withRunning b) = (f s).readWithRunning b

/-- An update that acts alike whatever the run toggle holds. -/
def UpdatesAlike (f : State → State) : Prop := ∀ b s, f (s.withRunning b) = (f s).withRunning b

theorem mapPpu_alike (p : Ppu → Ppu) : ActsAlike fun s => .ok (s.mapPpu p) := fun _ _ => rfl

theorem ActsAlike.mapPpu {f : State → Halting State} (hf : ActsAlike f) (p : Ppu → Ppu) :
    ActsAlike fun s => f (s.mapPpu p) := fun b s => hf b (s.mapPpu p)

/-- Two operations in sequence, the second left out where the first is abandoned (60 R291). -/
theorem ActsAlike.bind {f g : State → Halting State} (hf : ActsAlike f) (hg : ActsAlike g) :
    ActsAlike fun s => (f s).bind g := by
  intro b s
  simp only [hf b s]
  cases f s with
  | ok t => exact hg b t
  | error t => rfl

theorem ReadsAlike.replyWith {f : State → Halting (Byte × State)} (hf : ReadsAlike f) :
    ActsAlike (fun s => Machine.replyWith (f s)) := by
  intro b s
  simp only [hf b s]
  cases f s <;> rfl

/-! ## PPU-space accesses -/

theorem cartPpuRead_alike (a : Addr) : ReadsAlike (cartPpuRead a) := by
  intro b s
  rw [cartPpuRead, cartPpuRead, apply_ite (Halting.readWithRunning b)]
  refine if_congr Iff.rfl ?_ rfl
  simp only [State.withRunning_cart]
  split
  · split <;> rfl
  · rfl

theorem videoRamRead_alike (a : Addr) : ReadsAlike (videoRamRead a) := by
  intro b s
  rw [videoRamRead, videoRamRead, apply_ite (Halting.readWithRunning b)]
  exact if_congr Iff.rfl rfl rfl

/-- A chain acts alike when its devices do (40 R133). -/
theorem consultRead_alike {read : DeviceId → Addr → State → Halting (Byte × State)} (a : Addr) {ds : List DeviceId}
    (h : ∀ d ∈ ds, ReadsAlike (read d a)) : ReadsAlike (consultRead read a ds) := by
  induction ds with
  | nil => exact fun _ _ => rfl
  | cons d ds ih =>
    intro b s
    have hds := ih fun d' hd => h d' (List.mem_cons_of_mem _ hd)
    rw [consultRead, consultRead, h d List.mem_cons_self b s]
    cases read d a s with
    | error t => rfl
    | ok r =>
      dsimp only
      rw [apply_ite (Halting.readWithRunning b)]
      exact if_congr Iff.rfl rfl (hds b r.2)

theorem ppuRead_alike (a : Addr) : ReadsAlike (ppuRead a) := by
  intro b s
  unfold ppuRead
  simp only [State.withRunning_ppu]
  split
  · rfl
  · refine consultRead_alike _ ?_ b (clearClaims ppuChain s)
    intro d hd
    rcases List.mem_pair.1 hd with rfl | rfl
    · exact cartPpuRead_alike _
    · exact videoRamRead_alike _

theorem ppuWrite_alike (a : Addr) (d : Byte) : UpdatesAlike (ppuWrite a d) := by
  intro b s
  simp only [ppuWrite_eq, State.ppuStore, State.withRunning_ppuResponder]
  split
  · rfl
  · split <;> rfl

/-! ## CPU transactions -/

theorem readData_alike : ReadsAlike readData := by
  intro b s
  simp only [readData, State.withRunning_ppu, ppuRead_alike _ b s]
  cases ppuRead (Loopy.ppuAddress s.ppu.v) s with
  | error t => rfl
  | ok r =>
    dsimp only
    rw [apply_ite (Halting.readWithRunning b)]
    exact if_congr Iff.rfl rfl rfl

theorem readRegister_alike (r : Nat) : ReadsAlike (readRegister r) := by
  intro b s
  unfold readRegister
  split
  · rfl
  · rfl
  · exact readData_alike b s
  · rfl

theorem writeRegister_alike (r : Nat) (d : Byte) : UpdatesAlike (writeRegister r d) := by
  intro b s
  unfold writeRegister
  split
  case h_8 => exact congrArg (State.mapPpu Ppu.advanceV) (ppuWrite_alike (Loopy.ppuAddress s.ppu.v) d b s)
  all_goals rfl

theorem cpuBusRead_alike (a : Addr) : ReadsAlike (cpuBusRead a) := by
  intro b s
  by_cases hwin : 0x2000 ≤ a.toNat ∧ a.toNat ≤ 0x3FFF
  · rw [cpuBusRead_register a _ hwin.1 hwin.2, cpuBusRead_register a s hwin.1 hwin.2]
    exact readRegister_alike _ b s.ppuClaims
  · rw [cpuBusRead_memory a _ (by omega), cpuBusRead_memory a s (by omega)]
    simp only [State.withRunning_cpuResponder, State.withRunning_cart]
    split
    · split <;> rfl
    · rfl
    · rfl

theorem cpuBusWrite_alike (a : Addr) (d : Byte) : UpdatesAlike (cpuBusWrite a d) := by
  intro b s
  by_cases hwin : 0x2000 ≤ a.toNat ∧ a.toNat ≤ 0x3FFF
  · rw [cpuBusWrite_register a d _ hwin.1 hwin.2, cpuBusWrite_register a d s hwin.1 hwin.2]
    exact writeRegister_alike _ d b s.ppuClaims
  · rw [cpuBusWrite_memory a d _ (by omega), cpuBusWrite_memory a d s (by omega)]
    simp only [State.withRunning_cpuResponder]
    split <;> rfl

theorem cpuTransaction_alike (txn : CpuTxn) : ActsAlike (cpuTransaction txn) := by
  cases txn with
  | read a => exact (cpuBusRead_alike a).replyWith
  | write a d => exact fun b s => congrArg Except.ok (cpuBusWrite_alike a d b s)

/-! ## One PPU clock (43 R260) -/

theorem fetchInto_alike (a : Addr) (f : Byte → Ppu → Ppu) : ActsAlike (fetchInto a f) := by
  intro b s
  simp only [fetchInto, ppuRead_alike a b s]
  cases ppuRead a s <;> rfl

theorem fetchStep_alike (c : Nat) : ActsAlike (fetchStep c) := by
  intro b s
  unfold fetchStep
  split
  · exact fetchInto_alike _ _ b (s.mapPpu Ppu.loadBgShifters)
  · exact fetchInto_alike _ _ b s
  · exact fetchInto_alike _ _ b s
  · exact fetchInto_alike _ _ b s
  · rfl
  · rfl

theorem windowEvents_alike (c : Nat) : ActsAlike (windowEvents c) := by
  intro b s
  unfold windowEvents
  split
  · exact fetchStep_alike c b ((s.mapPpu Ppu.shiftBg).mapPpu (Ppu.shiftSprites c))
  · rfl

theorem fetchSprite_alike (scanline : Int) (i : Nat) : ActsAlike (fetchSprite scanline i) := by
  intro b s
  simp only [fetchSprite, State.withRunning_ppu]
  generalize spritePatternAddress s.ppu scanline (s.ppu.slot i) = a
  rw [ppuRead_alike a b s]
  cases ppuRead a s with
  | error t => rfl
  | ok lo =>
    simp only [Halting.readWithRunning, ppuRead_alike (a + 8) b lo.2]
    cases ppuRead (a + 8) lo.2 <;> rfl

theorem fetchSpritesFrom_alike (scanline : Int) (n : Nat) : ∀ i, ActsAlike (fetchSpritesFrom scanline i n) := by
  induction n with
  | zero => exact fun _ _ _ => rfl
  | succ n ih =>
    intro i b s
    rw [fetchSpritesFrom_succ, fetchSpritesFrom_succ]
    exact (fetchSprite_alike scanline i).bind (ih (i + 1)) b s

theorem spriteEvents_alike (scanline : Int) (c : Nat) : ActsAlike (spriteEvents scanline c) := by
  intro b s
  unfold spriteEvents
  split
  · exact fetchSpritesFrom_alike scanline _ 0 b s
  · rfl

theorem renderEvents_alike (scanline : Int) (c : Nat) : ActsAlike (renderEvents scanline c) := by
  intro b s
  rw [renderEvents_eq_bind, renderEvents_eq_bind]
  exact ((windowEvents_alike c).mapPpu _).bind (((spriteEvents_alike scanline c).mapPpu _).bind (mapPpu_alike _)) b s

theorem lineEvents_alike (scanline : Int) (c : Nat) : ActsAlike (lineEvents scanline c) := by
  intro b s
  unfold lineEvents
  split
  · exact renderEvents_alike scanline c b s
  · rfl

theorem clock_alike : ActsAlike clock := by
  intro b s
  rw [clock_eq_bind, clock_eq_bind]
  exact ((lineEvents_alike s.ppu.scanline s.ppu.cycle).mapPpu Ppu.clearFrameComplete).bind (mapPpu_alike _) b s

/-! ## The system manager and the load -/

theorem powerOn_alike : UpdatesAlike powerOn := by
  intro b s
  rw [powerOn, powerOn, apply_ite (State.withRunning b)]
  exact if_congr Iff.rfl rfl rfl

theorem runCallbacks_alike (cbs : List Callback) : UpdatesAlike (runCallbacks cbs) := by
  induction cbs with
  | nil => exact fun _ _ => rfl
  | cons cb cbs ih =>
    intro b s
    cases cb
    exact ih b (resetBoth s)

theorem loadBytes_alike (bytes : List Byte) : ActsAlike (loadBytes bytes) := by
  intro b s
  have hcommit := runCallbacks_alike s.cart.callbacks b { s with cart := s.cart.populate (parseHeader bytes) bytes }
  simp only [loadBytes, apply_ite (Halting.withRunning b)]
  refine if_congr Iff.rfl rfl (if_congr Iff.rfl rfl (if_congr Iff.rfl rfl (if_congr Iff.rfl rfl ?_)))
  exact congrArg Except.ok hcommit

theorem loadCartridge_alike (image : Image) : ActsAlike (loadCartridge image) := by
  intro b s
  unfold loadCartridge
  rw [apply_ite (Halting.withRunning b)]
  refine if_congr Iff.rfl rfl ?_
  cases image with
  | unreadable => rfl
  | bytes bytes => exact loadBytes_alike bytes b s

/-! ## Every instruction -/

theorem ActsAlike.finish {f : State → Halting State} (hf : ActsAlike f) (b : Bool) (s : State) :
    Machine.finish (f (s.withRunning b)) = .next ((endState (f s)).withRunning b) :=
  congrArg Host.Outcome.next ((congrArg endState (hf b s)).trans (endState_withRunning b (f s)))

/-- An instruction other than SYS_STEP and SET_RUN completes, and acts alike whatever the run toggle holds (44 R278). -/
theorem exec_withRunning {i : Instr} (hstep : i ≠ .sysStep) (hrun : ∀ r, i ≠ .setRun r) (b : Bool) (s : State) :
    ∃ t, exec i s = .next t ∧ exec i (s.withRunning b) = .next (t.withRunning b) := by
  cases i with
  | cpuRdWram a | cpuRdReg0 a | cpuRdReg1 a | cpuRdReg2 a | cpuRdReg3 a | cpuRdReg4 a | cpuRdReg5 a | cpuRdReg6 a
  | cpuRdReg7 a | cpuRdOpen a | cpuRdPrg a => exact ⟨_, rfl, (cpuTransaction_alike (.read a)).finish b s⟩
  | cpuWrWram a d | cpuWrReg0 a d | cpuWrReg1 a d | cpuWrReg2 a d | cpuWrReg3 a d | cpuWrReg4 a d | cpuWrReg5 a d
  | cpuWrReg6 a d | cpuWrReg7 a d | cpuWrOpen a d | cpuWrPrg a d =>
    exact ⟨_, rfl, (cpuTransaction_alike (.write a d)).finish b s⟩
  | ppuRdChr a | ppuRdNt a | ppuRdPal a => exact ⟨_, rfl, (ppuRead_alike a).replyWith.finish b s⟩
  | ppuWrChr a d | ppuWrNt a d | ppuWrPal a d => exact ⟨_, rfl, congrArg Host.Outcome.next (ppuWrite_alike a d b s)⟩
  | ppuClock => exact ⟨_, rfl, clock_alike.finish b s⟩
  | sysStep => exact absurd rfl hstep
  | reset => exact ⟨_, rfl, rfl⟩
  | powerOn => exact ⟨_, rfl, congrArg Host.Outcome.next (powerOn_alike b s)⟩
  | loadCart => exact ⟨_, rfl, (loadCartridge_alike s.env.operand).finish b s⟩
  | setRun run => exact absurd rfl (hrun run)
  | reservedOpAB op d a | reservedOpCF op d a => exact ⟨_, rfl, rfl⟩

/-- Acting alike whatever the toggle holds, an instruction does not change it: run it from the toggle that stands. -/
theorem exec_running {i : Instr} (hstep : i ≠ .sysStep) (hrun : ∀ r, i ≠ .setRun r) {s t : State}
    (ht : exec i s = .next t) : t.running = s.running := by
  obtain ⟨u, -, hu⟩ := exec_withRunning hstep hrun s.running s
  cases ht.symm.trans hu
  rfl

/-- Settles O36: SET_RUN and a paused SYS_STEP by their definitions, every other instruction by acting alike. -/
theorem runTogglesOnlyStepping : Obligations.RunTogglesOnlyStepping := by
  unfold Obligations.RunTogglesOnlyStepping
  refine ⟨fun _ _ => rfl, fun s => exec_sysStep_paused, fun i s b hstep hrun => ?_⟩
  obtain ⟨t, ht, htoggled⟩ := exec_withRunning hstep hrun b s
  exact ⟨t, ht, exec_running hstep hrun ht, htoggled⟩

end Sys2Proof.Machine
end

section
/-!
SUPPORT. The Status read in the step that runs the vblank dot (spec 60 R298, 70 R323): three clocks across (241, 1), the
delivery, and a CPU clock that reads Status.
-/
namespace Sys2Proof.Machine

/-! ## Clocks across the vblank dot (43 R255) -/

theorem clock_ctrl (s : State) : (endState (clock s)).ppu.ctrl = s.ppu.ctrl := by
  rw [(clock_sameOutside s).ctrl]
  simp only [State.mapPpu, Ppu.dotNmi, Ppu.when, Ppu.raiseNmi]
  split_ifs <;> rfl

theorem clocks_ctrl (n : Nat) (s : State) : (endState (clocks n s)).ppu.ctrl = s.ppu.ctrl := by
  induction n generalizing s with
  | zero => rfl
  | succ n ih =>
    have hclock := clock_ctrl s
    rw [clocks_succ]
    cases hc : clock s with
    | error t => rw [hc] at hclock; exact hclock
    | ok t => rw [hc] at hclock; exact (ih t).trans hclock

/-- With the NMI enabled, the clock of the vblank dot raises the request (43 R255). -/
theorem clock_raisesNmi {s : State} (hv : s.ppu.vblankDot) (hen : s.ppu.ctrl.getLsbD 7 = true) :
    (endState (clock s)).ppu.nmiPending = true := by
  have hnmi : s.ppu.nmiEnable = true := hen
  rw [clock_nmiPending, decide_eq_true hv.1, beq_iff_eq.2 hv.2, hnmi]
  exact Bool.or_true _

/-- With the NMI enabled, a request stands after any run of clocks that passes the vblank dot. -/
theorem clocks_pastVblank_nmiPending {m : Nat} {s u : State} (hu : clocks m s = .ok u) (hv : u.ppu.vblankDot)
    (hen : s.ppu.ctrl.getLsbD 7 = true) (n : Nat) : (endState (clocks (m + (n + 1)) s)).ppu.nmiPending = true := by
  have hctrl := clocks_ctrl m s
  rw [hu] at hctrl
  have hraised := clock_raisesNmi hv (hctrl ▸ hen)
  rw [clocks_add, hu]
  change (endState (clocks (n + 1) u)).ppu.nmiPending = true
  rw [clocks_succ]
  cases hc : clock u with
  | error t => rw [hc] at hraised; exact hraised
  | ok t => rw [hc] at hraised; exact clocks_nmiPending hraised n

/-- A state whose next dot is `k` dots after (-1, 0), with the vblank dot still to come. -/
theorem State.AtDot.beforeVblank {s : State} {k : Nat} (hl : s.ppu.scanline = (k / 341 : Nat) - 1)
    (hc : s.ppu.cycle = k % 341) (hk : k ≤ 242 * 341 + 1) : s.AtDot k s where
  scanline := hl
  cycle := hc
  oddFrame := rfl
  mask := rfl
  cart := rfl
  vblank := fun hpast => absurd hpast (Nat.not_lt.2 hk)

/-- The clocks from a dot of the frame across the vblank dot: they complete, and leave `vblank` and, with the NMI enabled,
a request (43 R255). -/
theorem State.AtDot.clocks_pastVblank {s : State} (h : Cart.chrInBounds s.cart) {k n : Nat} (hs : s.AtDot k s)
    (hen : s.ppu.ctrl.getLsbD 7 = true) (hk : k ≤ 242 * 341 + 1) (hpast : 242 * 341 + 1 < k + n)
    (hend : k + n ≤ 341 * 262 - 1) :
    ∃ t, Machine.clocks n s = .ok t ∧ t.ppu.status.getLsbD 7 = true ∧ t.ppu.nmiPending = true := by
  obtain ⟨m, hm⟩ := Nat.exists_eq_add_of_le hk
  obtain ⟨r, rfl⟩ : ∃ r, n = m + (r + 1) := ⟨n - m - 1, by omega⟩
  obtain ⟨u, hu, hdot, -⟩ := hs.clocks h m (by omega)
  obtain ⟨t, ht, hreached, -⟩ := hs.clocks h (m + (r + 1)) hend
  have hv : u.ppu.vblankDot := by
    have hline := hdot.scanline
    have hcycle := hdot.cycle
    exact ⟨by omega, by omega⟩
  have hpending := clocks_pastVblank_nmiPending hu hv hen r
  rw [ht] at hpending
  exact ⟨t, ht, hreached.vblank hpast, hpending⟩

/-! ## A CPU clock that reads Status (42 R183, 44 R274) -/

/-- A batch of one transaction ends where the transaction does, abandoned or not. -/
theorem endState_runBatch_singleton (txn : CpuTxn) (s : State) :
    endState (runBatch [txn] s) = endState (cpuTransaction txn s) := by
  rw [runBatch_cons]
  cases cpuTransaction txn s <;> rfl

/-- The state a Status read of the CPU collaborator ends in (42 R183). -/
theorem endState_runBatch_statusRead (s : State) :
    endState (runBatch [.read 0x2002] s) =
      { s with
        claimed := { s.claimed with cartCpu := false, ppu := true, workRam := false }
        ppu := { s.ppu with status := s.ppu.status &&& 0x7F, w := false }
        env :=
          { s.env with
            replies := ((s.ppu.status &&& 0xE0) ||| (Config.statusLowBits s.env.draws).setWidth 8) :: s.env.replies
            draws := s.env.draws + 1 } } := by
  rw [endState_runBatch_singleton]
  exact Host.Outcome.next.inj (statusRead s 0x2002 (by decide) (by decide) (by decide))

/-- Bit 7 of the byte returned is the `vblank` flag, whatever is drawn below (42 R183). -/
theorem statusReply_vblank (status : Byte) (low : BitVec 5) :
    ((status &&& 0xE0) ||| low.setWidth 8).getLsbD 7 = status.getLsbD 7 := by
  simp

theorem vblankCleared (status : Byte) : (status &&& 0x7F).getLsbD 7 = false := by
  simp

/-- Settles O39: the three clocks pass (241, 1) whichever of the three dots they start at, so `vblank` and the request
stand when the delivery takes the request, and the read then finds `vblank`. -/
theorem statusReadInVblankStep : Obligations.StatusReadInVblankStep := by
  unfold Obligations.StatusReadInVblankStep
  intro s batches hr hchr hdot hen hbatch
  obtain ⟨k, hs, hlo, hhi⟩ : ∃ k, s.AtDot k s ∧ 242 * 341 + 1 < k + 3 ∧ k ≤ 242 * 341 + 1 := by
    rcases hdot with ⟨hl, hc⟩ | ⟨hl, hc | hc⟩
    · exact ⟨241 * 341 + 340, .beforeVblank (by omega) (by omega) (by omega), by omega, by omega⟩
    · exact ⟨242 * 341, .beforeVblank (by omega) (by omega) (by omega), by omega, by omega⟩
    · exact ⟨242 * 341 + 1, .beforeVblank (by omega) (by omega) (by omega), by omega, by omega⟩
  obtain ⟨t, hclocks, hvblank, hpending⟩ := hs.clocks_pastVblank hchr hen hhi hlo (by omega)
  have henv : t.env = s.env := by
    have henv := clocks_env 3 s
    rw [hclocks] at henv
    exact henv
  have hstep := exec_sysStep_running hr hclocks
  rw [deliverNmi_eq, hpending, cpuClock, nextBatch, henv, hbatch] at hstep
  change exec .sysStep s = .next (endState (runBatch [.read 0x2002] _)) at hstep
  rw [endState_runBatch_statusRead] at hstep
  exact ⟨_, _, hstep, rfl, rfl, (statusReply_vblank _ _).trans hvblank, vblankCleared _, rfl, rfl⟩

end Sys2Proof.Machine
end
